-- ==== Sys2Proof/Word.lean ====
section
/-! DEFINITION. The word types of the model: bytes, and the numbers of ladder levels. -/

namespace Sys2Proof

/-- One byte of a mailbox entry, a frame or a memory (R6). -/
abbrev Byte := BitVec 8

/-- A level of the ladder, counted from 0: level k of the spec is position k - 1 (R14). -/
abbrev Lvl := Fin 16

end Sys2Proof
end

