-- ==== Sys2Proof/Syntax.lean ====
section
/-! DEFINITION. The commands and events the SZ716 takes: the operand types and the one inductive Instr. -/

namespace Sys2Proof

/-- The four mailboxes (Table 13-7), in the order of their numbers (R359). -/
inductive Mailbox where
  | host | ring | uart | twb
  deriving DecidableEq, Repr

/-- Access levels (R305): Monitor 0x01, Operator 0x02, Service 0x03, Maker 0x04. -/
inductive Access where
  | monitor | operator | service | maker
  deriving DecidableEq, Repr

/-- What a command carries beside its payload: its mailbox, its TAG and the level it claims (R305, R306). -/
structure Req where
  mb    : Mailbox
  tag   : Byte
  level : Access
  deriving DecidableEq, Repr

/-- The two ring ports (R20). -/
inductive Port where
  | lka | lkb
  deriving DecidableEq, Repr

/-- The supply input that carries the load (R37). -/
inductive Carry where
  | main | aux | both
  deriving DecidableEq, Repr

/-- One ring frame (Table 10-3): TYPE, TURNED, SRC, HOPS, LEN, TTX (types 0x3 to 0x7), BODY, TAG and CRC as they stand on
the wire, and whether it ended with EOF (false: EOA, a code violation or a disparity error, R230). -/
structure Frame where
  ftype  : BitVec 4
  turned : Bool
  src    : Byte
  hops   : Byte
  len    : Byte
  ttx    : BitVec 32
  body   : List Byte
  tag    : BitVec 64
  crc    : BitVec 32
  eof    : Bool
  deriving DecidableEq, Repr

/-- The three cell limits of the guard (Table 4-8). -/
inductive CellLimit where
  | overVoltage | underVoltage | overTemperature
  deriving DecidableEq, Repr

/-- The guard limits that park every level (Table 4-8). -/
inductive ParkAll where
  | overCurrent | bsUnderVoltage (level : Lvl) | dieTemperature
  deriving DecidableEq, Repr

/-- The readings of one pre-start check (Table 4-5), in microvolts: the cell voltage and the four phases. -/
structure CheckReading where
  cell : Int
  p1   : Int
  p2   : Int
  p3   : Int
  p4   : Int
  deriving DecidableEq, Repr

/-- What one cell channel takes at a sample instant (R129 to R131): the converter's result in 20 microvolt steps before
saturation, the sensed insertion, and the time to and from the sensed gate edges around the instant, in ns. -/
structure CellIn where
  raw        : Int
  ins        : Bool
  ownBefore  : Option Nat
  ownAfter   : Option Nat
  otherAfter : Option Nat
  deriving DecidableEq, Repr

/-- What an error line of the engine reports (Table 8-9a): the code of a tile SRAM word, a lane result of a member that is not finite, or a
fault of the step sequencer. -/
inductive EngineLine where
  | word | lane (member : Fin 64) | sequencer
  deriving DecidableEq, Repr

/-- The readings a last-fault record takes of its channel (Table 11-7), in its units. -/
structure ChanReading where
  vin   : BitVec 16
  vout  : BitVec 16
  ipeak : BitVec 16
  duty  : BitVec 16
  temp  : BitVec 8
  deriving DecidableEq, Repr

/-- Why a regulator channel latches off (R255). -/
inductive RailTrip where
  | limited | hardOver | overVoltage
  deriving DecidableEq, Repr

/-- The class of a fault event (R288, R404). -/
inductive Grade where
  | none | corrected | contained | fatal
  deriving DecidableEq, Repr

/-- How a bus A transaction ends (R380, R381). -/
inductive BusOutcome where
  | answered (data : List Byte) | notAcknowledged | arbitrationLost
  deriving DecidableEq, Repr

/-- What a debug read addresses (R399): a host register by its address, a response window, or MRAM by its address. -/
inductive DebugTarget where
  | register (addr : BitVec 7) | rspwin | mram (addr : BitVec 23) | status | refusals
  deriving DecidableEq, Repr


/-- The commands and events of the SZ716, one constructor per row of spec/opcode_table.json, in its order. -/
inductive Instr where
  /-- SYS_INFO (R316). -/
  | sysInfo (req : Req)
  /-- SYS_RESET (R332). -/
  | sysReset (req : Req) (kind : Byte)
  /-- TEMP_READ (R316). -/
  | tempRead (req : Req)
  /-- FAULT_READ (R316). -/
  | faultRead (req : Req)
  /-- FAULT_CLEAR (R316). -/
  | faultClear (req : Req) (mask : BitVec 32)
  /-- FAULT_INJECT (R291). -/
  | faultInject (req : Req) (target : BitVec 16) (kind : Byte) (value duration : BitVec 32)
  /-- BLOCK_GATE (R317). -/
  | blockGate (req : Req) (block action : Byte)
  /-- CFG_STAGE (R320). -/
  | cfgStage (req : Req) (records : List Byte)
  /-- CFG_COMMIT (R321). -/
  | cfgCommit (req : Req) (expect : BitVec 32)
  /-- CFG_DISCARD (R320). -/
  | cfgDiscard (req : Req)
  /-- CFG_READ (R405). -/
  | cfgRead (req : Req) (source : Byte) (ids : List (BitVec 16))
  /-- CFG_STATE (R318). -/
  | cfgState (req : Req)
  /-- LADDER_STATUS (R322). -/
  | ladderStatus (req : Req)
  /-- LADDER_PARK (R322). -/
  | ladderPark (req : Req) (mask : BitVec 16)
  /-- SHELF_BYPASS (R322). -/
  | shelfBypass (req : Req) (action : Byte)
  /-- LEVEL_CLEAR (R90). -/
  | levelClear (req : Req) (mask : BitVec 16)
  /-- LADDER_CHECK (R322). -/
  | ladderCheck (req : Req)
  /-- MEAS_READ (R323). -/
  | measRead (req : Req)
  /-- NTC_READ (R323). -/
  | ntcRead (req : Req)
  /-- SENSE_STATUS (R323). -/
  | senseStatus (req : Req)
  /-- SWITCH_BINS (R323). -/
  | switchBins (req : Req) (level : Byte)
  /-- SENSE_CLEAR (R323). -/
  | senseClear (req : Req) (mask : BitVec 32)
  /-- CELL_ACCOUNT (R324). -/
  | cellAccount (req : Req) (first latch : Byte)
  /-- PACK_INFO (R324). -/
  | packInfo (req : Req)
  /-- PACK_AUTH (R324). -/
  | packAuth (req : Req)
  /-- ENGINE_OUTPUT (R194). -/
  | engineOutput (req : Req) (first count : Byte)
  /-- SPECTRUM (R193). -/
  | spectrum (req : Req) (level part : Byte)
  /-- MODEL_WRITE (R325). -/
  | modelWrite (req : Req) (offset : BitVec 32) (data : List Byte)
  /-- MODEL_INFO (R325). -/
  | modelInfo (req : Req) (slot : Byte)
  /-- RACK_STATUS (R326). -/
  | rackStatus (req : Req)
  /-- RACK_DISPATCH (R327). -/
  | rackDispatch (req : Req) (vd : BitVec 16) (tApply : BitVec 64) (limDis limCh : BitVec 16) (kind : Byte)
  /-- RACK_BUS (R327). -/
  | rackBus (req : Req) (vbus : BitVec 16) (contactor : Byte)
  /-- HOLDUP_CLEAR (R211). -/
  | holdupClear (req : Req)
  /-- RACK_SLEEP (R57). -/
  | rackSleep (req : Req)
  /-- RACK_STAGE (R224). -/
  | rackStage (req : Req) (records : List Byte)
  /-- RACK_COMMIT (R224). -/
  | rackCommit (req : Req) (digest : BitVec 64)
  /-- HANDOVER (R217). -/
  | handover (req : Req)
  /-- RING_STATUS (R326). -/
  | ringStatus (req : Req)
  /-- RELAY (R327). -/
  | relay (req : Req) (dst rsv : Byte) (inner : BitVec 16) (payload : List Byte)
  /-- AUX_STATUS (R328). -/
  | auxStatus (req : Req)
  /-- RAIL_CLEAR (R258). -/
  | railClear (req : Req) (channel : Byte)
  /-- EFUSE_CLEAR (R273). -/
  | efuseClear (req : Req) (channel : Byte)
  /-- EFUSE_PERMIT (R273). -/
  | efusePermit (req : Req) (channel permit : Byte)
  /-- STEP_CONTROL (R328). -/
  | stepControl (req : Req) (code action : Byte)
  /-- LAST_FAULT (R274). -/
  | lastFault (req : Req) (channel : Byte)
  /-- REC_SEEK (R348). -/
  | recSeek (req : Req) (mode : Byte) (key : BitVec 64)
  /-- REC_READ (R348). -/
  | recRead (req : Req) (count : Byte)
  /-- JOURNAL_INFO (R329). -/
  | journalInfo (req : Req)
  /-- JOURNAL_COMPACT (R344). -/
  | journalCompact (req : Req)
  /-- CAPTURE (R347). -/
  | capture (req : Req)
  /-- AUTH_CHALLENGE (R359). -/
  | authChallenge (req : Req) (level : Byte)
  /-- AUTH_RESPONSE (R359). -/
  | authResponse (req : Req) (level : Byte) (mac : List Byte)
  /-- IDENTITY (R364). -/
  | identity (req : Req) (challenge : List Byte)
  /-- IDENTITY_KEY (R364). -/
  | identityKey (req : Req)
  /-- KEY_INSTALL (R360). -/
  | keyInstall (req : Req) (slot rsv : Byte) (blob : List Byte)
  /-- LIFECYCLE_SET (R356). -/
  | lifecycleSet (req : Req) (target rsv : Byte) (auth : List Byte)
  /-- IMAGE_WRITE (R331). -/
  | imageWrite (req : Req) (offset : BitVec 32) (data : List Byte)
  /-- IMAGE_VERIFY (R369). -/
  | imageVerify (req : Req)
  /-- IMAGE_RELAY (R250). -/
  | imageRelay (req : Req)
  /-- IMAGE_STATUS (R331). -/
  | imageStatus (req : Req)
  /-- ACTIVATE (R373). -/
  | activate (req : Req) (expect : BitVec 32)
  /-- COUNTER_READ (R393). -/
  | counterRead (req : Req) (first count source : Byte) (order : BitVec 32)
  /-- SNAPSHOT (R394). -/
  | snapshot (req : Req)
  /-- SNAP_ORDER (R395). -/
  | snapOrder (req : Req) (tLatch : BitVec 64)
  /-- HIST_READ (R392). -/
  | histRead (req : Req) (hist half source : Byte) (order : BitVec 32)
  /-- PRECISE_READ (R397). -/
  | preciseRead (req : Req) (first : Byte)
  /-- TRACE_READ (R398). -/
  | traceRead (req : Req) (offset : BitVec 32)
  /-- HSTAT_READ (R299). -/
  | hstatRead (addr : BitVec 7) (num : Nat)
  /-- FSTAT_WRITE (R287). -/
  | fstatWrite (value : BitVec 32)
  /-- REGISTER_WRITE (R297). -/
  | registerWrite (addr : BitVec 7) (data : List Byte)
  /-- DOOR_SYNC (R300). -/
  | doorSync
  /-- DOOR_DROP (R300). -/
  | doorDrop
  /-- REQWIN_PUSH (R302). -/
  | reqwinPush (bytes : List Byte)
  /-- RSPWIN_POP (R302). -/
  | rspwinPop (count : Nat)
  /-- HCS_N_TIMEOUT (R296). -/
  | hcsNTimeout
  /-- REQUEST_POP (R307). -/
  | requestPop
  /-- REFUSAL_RESPONSE (R361). -/
  | refusalResponse (mb : Mailbox)
  /-- FINAL_RESPONSE (R308). -/
  | finalResponse (mb : Mailbox) (tag : Byte)
  /-- RESPONSE_PUSH (R303). -/
  | responsePush (mb : Mailbox)
  /-- HOLD_RELEASE (R353). -/
  | holdRelease
  /-- TWB_WINDOW_WRITE (R385). -/
  | twbWindowWrite (bytes : List Byte)
  /-- TWB_WINDOW_READ (R385). -/
  | twbWindowRead (count : Nat)
  /-- TWB_STATUS_READ (R386). -/
  | twbStatusRead (count : Nat)
  /-- UART_BYTE_RECEIVED (R388). -/
  | uartByteReceived (byte : Byte) (stop : Bool)
  /-- UART_IDLE (R389). -/
  | uartIdle
  /-- POWER_ON_RESET (R76). -/
  | powerOnReset
  /-- NOT_READY_CLEAR (R76). -/
  | notReadyClear
  /-- SHORE_CLOCK_TO_CRYSTAL (R76). -/
  | shoreClockToCrystal
  /-- BROWN_OUT (R72). -/
  | brownOut
  /-- CONTROLLER_RESET (R77). -/
  | controllerReset
  /-- RST_N_LOW (R74). -/
  | rstNLow (lowNs : Nat)
  /-- CP_WATCHDOG_EXPIRY (R73). -/
  | cpWatchdogExpiry
  /-- LP_WATCHDOG_EXPIRY (R73). -/
  | lpWatchdogExpiry
  /-- RECOVERY_COMPLETE (R101). -/
  | recoveryComplete
  /-- SUPPLY_SWITCHOVER (R38). -/
  | supplySwitchover (input : Carry)
  /-- HOLDUP_ENTRY (R43). -/
  | holdupEntry
  /-- FINAL_COUNTER_LATCH (R156). -/
  | finalCounterLatch
  /-- HOLDUP_EXIT (R44). -/
  | holdupExit
  /-- HOLDUP_COLLAPSE (R43). -/
  | holdupCollapse
  /-- VHOLD_CHARGED (R42). -/
  | vholdCharged (fromMv toMv chargeNs chargeUa : Nat)
  /-- VHOLD_CHARGE_TIMEOUT (R46). -/
  | vholdChargeTimeout
  /-- GATE_SUPPLY_UP (R91). -/
  | gateSupplyUp (bsUp insertShort bypassShort : BitVec 16)
  /-- CELL_SCAN (R41). -/
  | cellScan (outside : BitVec 16) (vholdMv chargeNs chargeUa : Nat)
  /-- WAKE_CURRENT (R55). -/
  | wakeCurrent (currentMa chargeNas : Int)
  /-- WAKE_TONE_DETECTED (R251). -/
  | wakeToneDetected (port : Port)
  /-- WAKE_IN (R53). -/
  | wakeIn (lowNs : Nat)
  /-- WAKE_TIMER_EXPIRY (R53). -/
  | wakeTimerExpiry
  /-- WATCH_TO_RUN (R56). -/
  | watchToRun
  /-- WATCH_TO_STILL (R53). -/
  | watchToStill
  /-- STILL_DWELL_END (R60). -/
  | stillDwellEnd
  /-- SLEEP_FRAME_RECEIVED (R58). -/
  | sleepFrameReceived (port : Port) (frame : Frame)
  /-- SLEEP_VOTE_TIMEOUT (R58). -/
  | sleepVoteTimeout
  /-- SLEEP_VETO (R59). -/
  | sleepVeto (activeNs : Nat)
  /-- STILL_ENTRY (R58). -/
  | stillEntry
  /-- FIRST_SYNC_AFTER_WAKE (R62). -/
  | firstSyncAfterWake
  /-- SHORE_CRYSTAL_LOSS (R64). -/
  | shoreCrystalLoss
  /-- REFERENCE_LOSS (R65). -/
  | referenceLoss
  /-- HOLDOVER_ENTRY (R66). -/
  | holdoverEntry
  /-- TIME_LOST (R66). -/
  | timeLost
  /-- TSYNC_PULSE (R68). -/
  | tsyncPulse
  /-- SHORE_MIRROR_REFRESH (R79). -/
  | shoreMirrorRefresh
  /-- CONTROL_PERIOD (R105). -/
  | controlPeriod
  /-- FRAME_BOUNDARY (R107). -/
  | frameBoundary
  /-- CARRIER_PEAK (R111). -/
  | carrierPeak
  /-- COMMAND_RECEIVED (R203). -/
  | commandReceived (port : Port) (frame : Frame)
  /-- COMMAND_MISSING (R106). -/
  | commandMissing
  /-- HOLD_EXPIRY (R123). -/
  | holdExpiry
  /-- HOLD_PARK (R123). -/
  | holdPark
  /-- GUARD_CELL_LIMIT (R96). -/
  | guardCellLimit (level : Lvl) (limit : CellLimit)
  /-- GUARD_PARK_ALL (R96). -/
  | guardParkAll (reason : ParkAll)
  /-- GUARD_RELEASE (R98). -/
  | guardRelease (level : Lvl)
  /-- GATE_STUCK (R84). -/
  | gateStuck (level : Lvl) (insertStuck : Bool)
  /-- SHELF_BYPASS_FORCE_OPEN (R99). -/
  | shelfBypassForceOpen
  /-- ADMISSION (R92). -/
  | admission
  /-- PRE_START_CHECK_LEVEL (R87). -/
  | preStartCheckLevel (level : Lvl) (first second : CheckReading)
  /-- START_RAMP_STEP (R93). -/
  | startRampStep
  /-- START_ABORT (R94). -/
  | startAbort (currentMa : Int) (outputMv : Int)
  /-- FREEZE (R100). -/
  | freeze
  /-- FREEZE_EXPIRY (R102). -/
  | freezeExpiry
  /-- PARK_STEP (R102). -/
  | parkStep
  /-- PACK_DISCONNECT (R89). -/
  | packDisconnect
  /-- PACK_DISCONNECT_DONE (R89). -/
  | packDisconnectDone (outputMv : Int)
  /-- PACK_DISCONNECT_TIMEOUT (R89). -/
  | packDisconnectTimeout
  /-- CELL_SAMPLE (R129). -/
  | cellSample (cells : List CellIn)
  /-- SHUNT_SAMPLE (R134). -/
  | shuntSample (nanoVolt : Int) (inputOpen : Bool)
  /-- HALL_SAMPLE (R136). -/
  | hallSample (microVolt : Int)
  /-- INTEGRATION_INTERVAL (R154). -/
  | integrationInterval (inserted : List Nat)
  /-- CELL_MEANS_1MS (R150). -/
  | cellMeans1ms
  /-- TAP_TESTS_COMPLETE (R152). -/
  | tapTestsComplete (tap : Fin 17) (moveUv : Int)
  /-- STACK_SAMPLE (R138). -/
  | stackSample (microVolt : Int) (inputMa : Int)
  /-- SWITCH_DROP_SLOT (R139). -/
  | switchDropSlot (blanked : BitVec 16) (microVolt : Int)
  /-- NTC_SLOT (R140). -/
  | ntcSlot (ratioPpm : Nat)
  /-- CORRECTION_UPDATE_10MS (R144). -/
  | correctionUpdate10ms (rcPeriodPs : Nat)
  /-- SOC_UPDATE (R158). -/
  | socUpdate
  /-- COUNTER_COMMIT (R157). -/
  | counterCommit
  /-- ANCHOR_HOLD_EXPIRY (R160). -/
  | anchorHoldExpiry (level : Lvl)
  /-- ANCHOR_END (R162). -/
  | anchorEnd (level : Lvl)
  /-- TOKEN_READ (R167). -/
  | tokenRead (answer : Option (BitVec 64))
  /-- PACK_AUTH_ATTEMPT (R383). -/
  | packAuthAttempt (answer : Option (BitVec 64 × List Byte))
  /-- ENGINE_STEP (R178). -/
  | engineStep
  /-- ENGINE_STEP_COMPLETE (R186). -/
  | engineStepComplete (tile : Fin 16)
  /-- ENGINE_OVERRUN (R197). -/
  | engineOverrun
  /-- WARMUP_TIMEOUT (R182). -/
  | warmupTimeout (tile : Fin 16)
  /-- ENSEMBLE_RESAMPLE (R179). -/
  | ensembleResample
  /-- LEARNED_SET_WRITE (R180). -/
  | learnedSetWrite
  /-- ENGINE_RESTART (R197). -/
  | engineRestart
  /-- IMPEDANCE_WINDOW_END (R191). -/
  | impedanceWindowEnd (level : Lvl) (point : Fin 32)
  /-- DITHER_CHIP (R192). -/
  | ditherChip
  /-- THROTTLE_CHANGE (R195). -/
  | throttleChange
  /-- WELLHEAD_CYCLE (R201). -/
  | wellheadCycle
  /-- BUS_HOLDUP_EXIT (R211). -/
  | busHoldupExit
  /-- STATUS_SEND (R204). -/
  | statusSend
  /-- STATUS_UNSCHEDULED (R204). -/
  | statusUnscheduled
  /-- STATUS_RECEIVED (R208). -/
  | statusReceived (port : Port) (frame : Frame)
  /-- LEADER_LOSS (R215). -/
  | leaderLoss
  /-- SUCCESSOR_TAKEOVER (R217). -/
  | successorTakeover
  /-- RANK_TAKEOVER (R219). -/
  | rankTakeover
  /-- PLANNED_HANDOVER (R217). -/
  | plannedHandover
  /-- LEASE_EXPIRY (R220). -/
  | leaseExpiry
  /-- CHECKPOINT_SEND (R216). -/
  | checkpointSend
  /-- CHECKPOINT_EXPIRY (R216). -/
  | checkpointExpiry
  /-- RACK_STAGE_RECEIVED (R224). -/
  | rackStageReceived (src : Byte) (records : List Byte)
  /-- RACK_STAGE_TIMEOUT (R224). -/
  | rackStageTimeout
  /-- RACK_ORDER_RECEIVED (R224). -/
  | rackOrderReceived (gen : BitVec 32) (tc : Nat)
  /-- RACK_COMMIT_APPLY (R224). -/
  | rackCommitApply
  /-- PENDING_DISCARD (R224). -/
  | pendingDiscard
  /-- FRAME_FORWARD (R240). -/
  | frameForward (port : Port) (frame : Frame)
  /-- SYNC_SEND (R237). -/
  | syncSend (port : Port)
  /-- SYNC_RECEIVED (R244). -/
  | syncReceived (port : Port) (frame : Frame)
  /-- TRAINING_BURST (R246). -/
  | trainingBurst (port : Port) (heard : Bool)
  /-- PORT_DOWN (R247). -/
  | portDown (port : Port)
  /-- MSG_RECEIVED (R249). -/
  | msgReceived (port : Port) (frame : Frame)
  /-- MSG_RETRY (R249). -/
  | msgRetry (dst : Byte)
  /-- SUSPEND_TIMEOUT (R238). -/
  | suspendTimeout (port : Port)
  /-- IMAGE_FRAME_RECEIVED (R250). -/
  | imageFrameReceived (port : Port) (frame : Frame)
  /-- IMAGE_FRAME_SEND (R250). -/
  | imageFrameSend (port : Port)
  /-- SNAP_RECEIVED (R395). -/
  | snapReceived (port : Port) (frame : Frame)
  /-- SNAP_LATCH (R395). -/
  | snapLatch
  /-- SEQUENCE_STEP (R262). -/
  | sequenceStep (seqIn : Bool)
  /-- RAIL_POWER_GOOD (R257). -/
  | railPowerGood (channel : Fin 4)
  /-- SOFT_START_END (R257). -/
  | softStartEnd (channel : Fin 4) (reading : ChanReading)
  /-- RAIL_LATCH_OFF (R255). -/
  | railLatchOff (channel : Fin 4) (reason : RailTrip) (reading : ChanReading)
  /-- RAIL_AUTO_CLEAR (R258). -/
  | railAutoClear (channel : Fin 4)
  /-- EFUSE_PRECHECK_END (R269). -/
  | efusePrecheckEnd (channel : Fin 6) (reading : ChanReading)
  /-- EFUSE_GATE_WINDOW (R270). -/
  | efuseGateWindow (channel : Fin 6) (reading : ChanReading)
  /-- EFUSE_TRIP (R271). -/
  | efuseTrip (channel : Fin 6) (overload : Bool) (reading : ChanReading)
  /-- EFUSE_FAULT_TIMER (R272). -/
  | efuseFaultTimer (channel : Fin 6) (reading : ChanReading)
  /-- ORDERED_SHUTDOWN_FALL (R264). -/
  | orderedShutdownFall (outMv : Option Nat)
  /-- FLT_N_EXTERNAL_LOW (R266). -/
  | fltNExternalLow
  /-- FLT_N_PULSE_END (R266). -/
  | fltNPulseEnd
  /-- FLT_N_RESTART (R266). -/
  | fltNRestart
  /-- DIE_TEMP_READING (R281). -/
  | dieTempReading (power : Bool) (sensor : Fin 12) (count : Nat)
  /-- SAFE_MODE_EXIT (R282). -/
  | safeModeExit
  /-- SAFE_MODE_TIMEOUT (R282). -/
  | safeModeTimeout
  /-- FAULT_EVENT (R287). -/
  | faultEvent (source : Fin 32) (grade : Grade) (level : Option Lvl) (line : EngineLine)
  /-- SEVERE_END (R289). -/
  | severeEnd (source : Fin 32)
  /-- INJECTION_END (R292). -/
  | injectionEnd (id : Byte)
  /-- COMPACTION_SLICE (R344). -/
  | compactionSlice
  /-- JOURNAL_REPLAY (R343). -/
  | journalReplay
  /-- DEFERRED_RECORD_FLUSH (R346). -/
  | deferredRecordFlush
  /-- PERIODIC_SNAPSHOT (R346). -/
  | periodicSnapshot
  /-- TIME_MARK (R346). -/
  | timeMark
  /-- SCRUB_PAGE (R340). -/
  | scrubPage (corrected uncorrectable : Bool)
  /-- CAPTURE_TRIGGER (R347). -/
  | captureTrigger (cause : Fin 4)
  /-- CAPTURE_SAMPLE (R347). -/
  | captureSample
  /-- CAPTURE_END (R347). -/
  | captureEnd
  /-- VERSION_REPORT (R371). -/
  | versionReport (src : Byte) (data : List Byte)
  /-- ACTIVATION_REQUEST (R372). -/
  | activationRequest (src : Byte) (data : List Byte)
  /-- GRANT_EXPIRY (R372). -/
  | grantExpiry
  /-- GRANT_RECEIVED (R373). -/
  | grantReceived (data : List Byte)
  /-- GRANT_TIMEOUT (R373). -/
  | grantTimeout
  /-- ACTIVATION_RESTART (R374). -/
  | activationRestart
  /-- TRIAL_END (R375). -/
  | trialEnd
  /-- AUTH_LOCKOUT_END (R359). -/
  | authLockoutEnd (mb : Mailbox)
  /-- BUS_A_TRANSACTION (R381). -/
  | busATransaction (outcome : BusOutcome)
  /-- BUS_A_TIMEOUT (R379). -/
  | busATimeout
  /-- TOKEN_POLL (R383). -/
  | tokenPoll (state : Option Byte)
  /-- COUNTER_OVERFLOW_IRQ (R397). -/
  | counterOverflowIrq (counter : Fin 96) (latency : BitVec 32)
  /-- DEBUG_READ (R399). -/
  | debugRead (target : DebugTarget) (count : Nat)
  /-- DEBUG_HALT (R400). -/
  | debugHalt (cp lp : Bool) (lock : BitVec 2)
  /-- HALT_PENDING_RELEASE (R400). -/
  | haltPendingRelease
  /-- FORCED_HALT (R367). -/
  | forcedHalt
  /-- SUPPLY_BAND_CHANGE (R34). -/
  | supplyBandChange (vmainMv vauxMv : Nat)
  /-- CHANNEL_3_DROPOUT (R254). -/
  | channel3Dropout (enter : Bool)
  /-- RAIL_SHORT_CHECK_END (R256). -/
  | railShortCheckEnd (channel : Fin 4) (shorted : Bool)
  /-- EFUSE_POWER_GOOD (R270). -/
  | efusePowerGood (channel : Fin 6)
  /-- EFUSE_CURRENT_LIMIT (R272). -/
  | efuseCurrentLimit (channel : Fin 6) (enter : Bool)
  /-- FLT_N_EXTERNAL_HIGH (R266). -/
  | fltNExternalHigh
  /-- SEQ_OUT_LEAD_TIME_END (R264). -/
  | seqOutLeadTimeEnd
  /-- RST_N_RELEASE (R74). -/
  | rstNRelease
  /-- CONTROL_RAILS_GOOD (R77). -/
  | controlRailsGood
  /-- COMMAND_WINDOW_OPEN (R236). -/
  | commandWindowOpen
  /-- PORT_LINE_FREE (R239). -/
  | portLineFree (port : Port)
  /-- CAPTURE_HOLDOFF_END (R347). -/
  | captureHoldoffEnd
  /-- NONCE_EXPIRY (R330). -/
  | nonceExpiry (mb : Mailbox)
  /-- DEBUG_RESUME (R400). -/
  | debugResume (cp lp : Bool)
  deriving DecidableEq, Repr

end Sys2Proof
end

