-- ==== Sys2Proof/Decode.lean ====
section
/-! DEFINITION. The command a word of the opcode table spells. The table gives no row any bits. -/

namespace Sys2Proof

/-- The command a word spells by the table's bits: the table gives bits to no row, so no word spells one. The mailbox
entries of the spec are read by REQUEST_POP (Machine/Mailbox.lean). -/
def decodeTableWord (_nbits _w : Nat) : Option Instr := none

end Sys2Proof
end

