-- ==== Sys2Proof/Config.lean ====
section
/-! DEFINITION. What the spec leaves open, as constants without a body: nothing can be proved of their values. The Nat argument
n of a free value is State.free, which the step that takes it advances (log entry 2). -/

namespace Sys2Proof.Config

/-- A free number, for a value the spec does not state (log entry 2). -/
opaque freeNat : Nat → Nat

/-- A free quantity (log entry 2). -/
opaque freeRat : Nat → Rat

/-- Free bytes: nonces, challenges and other values the spec does not state (log entry 2). -/
opaque freeBytes : Nat → List Byte

/-- The event code of a source's event: the chapters name none (R345, log entry 6). -/
opaque eventCode : Nat → Nat → BitVec 16

/-- The DATA of an event record, per CODE (Table 15-5, log entry 6). -/
opaque eventData : Nat → Nat → Nat → List Byte

/-- Bytes of ITEMS that the state items of a journal group take; their layout is not stated (Table 15-3, log entry 7). -/
opaque stateItemBytes : Nat → Nat

/-- DEVICE_ID (R364, log entry 8). -/
opaque deviceId : BitVec 64

/-- Loircen's public keys, one per purpose (R356, R360, R368; log entry 8). -/
opaque loircenKey : Nat → Nat × Nat

/-- The Maker credential, which Loircen derives for each device: the manual does not describe it (R359, log entry 8). -/
opaque makerCredential : List Byte

/-- The private identity key of the n-th draw, and the ephemeral number of a signature (R364, log entry 8). -/
opaque identityScalar : Nat → Nat

/-- The data of a Wellhead checkpoint on channel 0x01: R216 lists its contents and no layout (log entry 9). -/
opaque encodeCheckpoint : List Nat → List Byte

/-- What a checkpoint message holds, as the numbers that encodeCheckpoint took (log entry 9). -/
opaque decodeCheckpoint : List Byte → Option (List Nat)

/-- The data of a rack configuration message on channel 0x02: no layout is stated (R224, log entry 9). -/
opaque encodeRack : Nat → List Nat → List Byte → List Byte

/-- What a rack configuration message says, as encodeRack took it (log entry 9). -/
opaque decodeRack : List Byte → Option (Nat × List Nat × List Byte)

/-- The data of a link report on channel 0x03 (R247, log entry 9). -/
opaque encodeLink : Nat → Bool → List Byte

/-- What a link report says: a shelf whose LKB hop is named, and whether it is down (log entry 9). -/
opaque decodeLink : List Byte → Option (Nat × Bool)

/-- What an image resend request asks for: an image and a chunk (log entry 9). -/
opaque decodeResend : List Byte → Option (Nat × Nat)

/-- The data of an image resend request on channel 0x04 (R250, log entry 9). -/
opaque encodeResend : Nat → Nat → List Byte

/-- The string current that comes from the ring while the shelf bypass switch is closed, at a model time [A]: no frame that the spec lays out
carries it (R17, log entry 145). -/
opaque ringCurrent : Nat → Rat

/-- A byte of the state items of a journal group, by its KIND, SEQ and offset: their layout is not stated (Table 15-3, log entry 7). -/
opaque stateItemByte : Nat → Nat → Nat → BitVec 8

/-- A control-die sensor stands nearest the 64 MHz RC: which do is not stated (R280, log entry 198). -/
opaque nearRc : Nat → Bool

/-- The RC's temperature trim that a mean reading [0.01 degC] sets: the curve is not stated (R280, log entry 198). -/
opaque rcTrim : Rat → Int

/-- The correction of the references that a mean reading [0.01 degC] sets: the curve is not stated (R143, R280, log entry 198). -/
opaque refCorrection : Rat → Int

/-! The model templates and the records of a model file: their equations and layout are not in the spec (R174, R175, R180, log entry 10).
A mode is that of Table 8-8; p are the parameters of a member, x its states, u the inputs of a step: the cell current, the string current
[A], the cell and coolant temperatures [degC], and the step period [s]. -/

/-- The bytes of a model file, by offset. -/
abbrev File := List (Nat × Byte)

/-- Record i of a file: its value and its relative deviation, 0 for a record without an uncertainty. -/
opaque fileParam : File → Nat → Rat × Rat

/-- The bounds that its template declares for record i. -/
opaque paramBounds : File → Nat → Rat × Rat

/-- Draw i of the n-th drawing: log-normal about a value, with a relative deviation. -/
opaque logNormal : Nat → Nat → Rat → Rat → Rat

/-- The states of a member at a state of charge [%] and a temperature, with relaxed concentrations. -/
opaque startState : Nat → File → List Rat → Rat → Rat → List Rat

/-- The state of charge [%] that the open-circuit curve gives for a voltage. -/
opaque ocvSoc : File → List Rat → Rat → Rat

/-- The states after a step. -/
opaque stateAfter : Nat → File → List Rat → List Rat → List Rat → List Rat

/-- The terminal voltage at the midpoint of a step, at a current [V]. -/
opaque voltAt : Nat → File → List Rat → List Rat → List Rat → Rat → Rat

/-- The temperature of the surface node. -/
opaque surfaceT : Nat → File → List Rat → List Rat → Rat

/-- The states after the correction by a mean voltage residual [mV] with the gains of the file. -/
opaque corrected : Nat → File → List Rat → Rat → List Rat

/-- Every state lies within the bounds of its template. -/
opaque stateOk : Nat → File → List Rat → Bool

/-- Quantity q of a member, with what is propagated over a horizon [s]: 0 plating margin [mV], 1 its rate; 2 core temperature, 3 its rate,
4 and 5 its sensitivity in charge and discharge; 6 sensitivity of the margin; 7 terminal voltage [V], 8 its rate, 9 and 10 its
sensitivity in charge and discharge; 11 lithium inventory in % of NOMINAL. -/
opaque memberGives : Nat → Nat → File → List Rat → List Rat → List Rat → Rat → Rat

/-- The charge-limit map of a file at a core temperature and s(k) [A]. -/
opaque chargeMap : File → Rat → Option Rat → Rat

/-- The resistance that a file gives at a temperature and s(k) [Ohm]. -/
opaque fileOhm : File → Rat → Option Rat → Rat

/-- The gain of the integral law of the taper limit, in A per V and frame: R160 gives none (log entry 14). -/
opaque taperGain : Rat

/-- A chip of the 255-chip dither sequence of R192, true for +: the sequence is not stated (log entry 15). -/
opaque ditherChip : Nat → Bool

end Sys2Proof.Config
end

