-- ==== Sys2Proof/Machine/Bytes.lean ====
section
/-! DEFINITION. Byte order, bit fields, lists by position, and the arithmetic the spec names: clamping, rounding,
binary32, exp and ln. -/

namespace Sys2Proof.Machine

/-- The n low bytes of v, least significant first (R6). -/
def leBytes : Nat → Nat → List Byte
  | 0, _ => []
  | n + 1, v => BitVec.ofNat 8 v :: leBytes n (v / 256)

/-- The number a little-endian byte string stands for (R6). -/
def leNat : List Byte → Nat
  | [] => 0
  | b :: bs => b.toNat + 256 * leNat bs

/-- A number as n bytes, two's complement (R319). -/
def leInt (n : Nat) (v : Int) : List Byte := leBytes n (v.emod (256 ^ n : Int)).toNat

/-- The signed number a byte string stands for (R319). -/
def leSigned (bs : List Byte) : Int :=
  let v := leNat bs
  if v < 256 ^ bs.length / 2 then v else (v : Int) - 256 ^ bs.length

/-- A bit vector of whole bytes, least significant byte first. -/
def bvBytes {w : Nat} (n : Nat) (v : BitVec w) : List Byte := leBytes n v.toNat

/-- n bytes from position o; bytes past the end read 0. -/
def bytesAt (bs : List Byte) (o n : Nat) : List Byte := (List.range n).map fun i => bs.getD (o + i) 0

/-- The unsigned field of n bytes at position o. -/
def fieldAt (bs : List Byte) (o n : Nat) : Nat := leNat (bytesAt bs o n)

/-- The numbers big-endian strings stand for (signatures, R356). -/
def beNat (bs : List Byte) : Nat := bs.foldl (fun a b => a * 256 + b.toNat) 0

/-- The n low bytes of v, most significant first. -/
def beBytes (n v : Nat) : List Byte := (leBytes n v).reverse

/-- Pads or cuts a byte string to n bytes. -/
def fitBytes (n : Nat) (bs : List Byte) : List Byte := bytesAt bs 0 n

/-- One flag as a number. -/
def bit (b : Bool) (i : Nat) : Nat := if b then 2 ^ i else 0

/-- The flags of a list of 16 levels or fewer, position 0 first, as a mask. -/
def maskOf (bs : List Bool) : Nat := bs.zipIdx.foldl (fun a p => a + bit p.1 p.2) 0

/-- The value between the bounds. -/
def clampRat (x lo hi : Rat) : Rat := if x < lo then lo else if hi < x then hi else x

/-- The value between the bounds. -/
def clampNat (x lo hi : Nat) : Nat := if x < lo then lo else if hi < x then hi else x

/-- The magnitude. -/
def absRat (x : Rat) : Rat := if x < 0 then -x else x

/-- The lower of two numbers. -/
def minRat (x y : Rat) : Rat := if x ≤ y then x else y

/-- The higher of two numbers. -/
def maxRat (x y : Rat) : Rat := if x ≤ y then y else x

/-- The lowest of a list, or the default. -/
def minList (d : Rat) (l : List Rat) : Rat := l.foldl minRat d

/-- The sum of a list. -/
def sumRat (l : List Rat) : Rat := l.foldl (· + ·) 0

/-- The nearest whole number, halves away from zero. -/
def roundRat (x : Rat) : Int := if x < 0 then -((-x + 1/2).floor) else (x + 1/2).floor

/-- The nearest whole number, ties to even (R153). -/
def roundEven (x : Rat) : Int :=
  let f : Int := x.floor
  let d : Rat := x - (f : Rat)
  if d < 1/2 then f else if 1/2 < d then f + 1 else if f % 2 = 0 then f else f + 1

/-- An unsigned number cut to what n bits hold. -/
def satNat (bits : Nat) (v : Nat) : Nat := min v (2 ^ bits - 1)

/-- A number of units reported in an unsigned field of n bits, rounded to the nearest and cut to what it holds. -/
def reportNat (bits : Nat) (x : Rat) : Nat := satNat bits (roundRat x).toNat

/-- 2 to a whole power. -/
def pow2 (e : Int) : Rat := if e < 0 then 1 / ((2 ^ e.natAbs : Nat) : Rat) else ((2 ^ e.toNat : Nat) : Rat)

/-- The exponent of the leading bit of a positive number. -/
def exponent (x : Rat) : Int :=
  let e := (x.num.natAbs.log2 : Int) - (x.den.log2 : Int)
  if pow2 e ≤ x then (if pow2 (e + 1) ≤ x then e + 1 else e) else e - 1

/-- The binary32 number nearest to x, ties to even (the format of X, λ and δ; R116, R202). -/
def toF32 (x : Rat) : Rat :=
  if x = 0 then 0
  else
    let e := max (exponent (absRat x)) (-126)
    let u := pow2 (e - 23)
    roundEven (x / u) * u

/-- The 32 bits of a binary32 number in range. -/
def f32Bits (x : Rat) : Nat :=
  let y := toF32 x
  if y = 0 then 0
  else
    let a := absRat y
    let e : Int := exponent a
    let s : Nat := if y < 0 then 2 ^ 31 else 0
    if e < -126 then s + (a / pow2 (-149)).floor.toNat
    else s + (e + 127).toNat * 2 ^ 23 + ((a / pow2 (e - 23)).floor.toNat - 2 ^ 23 : Nat)

/-- The number 32 bits stand for; none for an infinity or a NaN. -/
def f32Val (w : Nat) : Option Rat :=
  let m : Nat := w % (2 ^ 23 : Nat)
  let e : Nat := (w / 2 ^ 23) % 256
  let s : Rat := if (w / 2 ^ 31) % 2 = (1 : Nat) then -1 else 1
  if e = 255 then none
  else if e = 0 then some (s * (m : Rat) * pow2 (-149))
  else some (s * ((2 ^ 23 + m : Nat) : Rat) * pow2 ((e : Int) - 150))

/-- One in the fixed-point format of expNeg and lnRat: 60 fraction bits. -/
def fixOne : Nat := 2 ^ 60

/-- exp(-y) for y of at most one, in the fixed-point format: the series to 20 terms, innermost first. -/
def expSeries (y : Nat) : Nat → Nat → Nat
  | 0, _ => fixOne
  | n + 1, k => fixOne - y * expSeries y n (k + 1) / (k * fixOne)

/-- exp(-x) for x of at least 0, to about 2^-50 (R133, R179). -/
def expNeg (x : Rat) : Rat :=
  if 45 ≤ x then 0
  else
    let y := (x * fixOne / 64).floor.toNat
    let sq := fun (v : Nat) => v * v / fixOne
    (sq (sq (sq (sq (sq (sq (expSeries y 20 1)))))) : Nat) / (fixOne : Rat)

/-- The odd powers of atanh, to n terms: z2 is the square of z, t its next power. -/
def atanhSeries (z2 : Nat) : Nat → Nat → Nat → Nat
  | 0, _, _ => 0
  | n + 1, t, k => t / k + atanhSeries z2 n (t * z2 / fixOne) (k + 2)

/-- The natural logarithm of a positive number, to about 2^-50 (R140). -/
def lnRat (x : Rat) : Rat :=
  let e := exponent x
  let m := x / pow2 e
  let z := ((m - 1) / (m + 1) * fixOne).floor.toNat
  let f := 2 * atanhSeries (z * z / fixOne) 24 z 1
  let ln2 := 2 * atanhSeries (fixOne / 9) 24 (fixOne / 3) 1
  ((f : Nat) : Rat) / fixOne + e * (((ln2 : Nat) : Rat) / fixOne)

/-- The series of the cosine for the square of an angle in the fixed-point format, innermost first; k numbers the term. -/
def cosSeries (y2 : Int) : Nat → Nat → Int
  | 0, _ => fixOne
  | n + 1, k => fixOne - y2 * cosSeries y2 n (k + 1) / (((2 * k - 1) * (2 * k) : Nat) * fixOne)

/-- The cosine of so many turns (R191). -/
def cosTurn (x : Rat) : Rat :=
  let y : Int := ((x - (roundRat x : Rat)) * 7244019458077122842).floor
  (cosSeries (y * y / fixOne) 14 1 : Rat) / (fixOne : Rat)

/-- The sine of so many turns. -/
def sinTurn (x : Rat) : Rat := cosTurn (x - 1 / 4)

/-- The whole square root of n, bit by bit from bit i down, r so far. -/
def sqrtBits (n : Nat) : Nat → Nat → Nat
  | 0, r => r
  | i + 1, r => sqrtBits n i (if (r + 2 ^ i) * (r + 2 ^ i) ≤ n then r + 2 ^ i else r)

/-- The square root of a number of at least 0, rounded down to a thousandth (R212). -/
def sqrtMilli (x : Rat) : Rat := ((sqrtBits (x * 1000000).floor.toNat 48 0 : Nat) : Rat) / 1000

/-- Puts a number into a rising list. -/
def insertInt (x : Int) : List Int → List Int
  | [] => [x]
  | y :: ys => if x ≤ y then x :: y :: ys else y :: insertInt x ys

/-- The middle reading of a list (the upper one of two; R279). -/
def medianInt (l : List Int) : Int := (l.foldr insertInt []).getD (l.length / 2) 0

/-- Puts a number into a rising list. -/
def insertRat (x : Rat) : List Rat → List Rat
  | [] => [x]
  | y :: ys => if x ≤ y then x :: y :: ys else y :: insertRat x ys

/-- The median of a list: the mean of the two middle ones of an even number, 0 of none (R180, R185). -/
def medianRat (l : List Rat) : Rat :=
  let o := l.foldr insertRat []
  (o.getD ((o.length - 1) / 2) 0 + o.getD (o.length / 2) 0) / 2

/-- Whether a is newer than b by serial-number arithmetic (R7). -/
def newer {w : Nat} (a b : BitVec w) : Bool :=
  let d := (a - b).toNat
  decide (1 ≤ d ∧ d ≤ 2 ^ (w - 1) - 1)

/-- Replaces the value kept under a key, or adds it. -/
def putKey {α : Type} (k : Nat) (v : α) (l : List (Nat × α)) : List (Nat × α) :=
  (k, v) :: l.filter (fun p => p.1 != k)

/-- The value kept under a key. -/
def getKey {α : Type} (k : Nat) (l : List (Nat × α)) : Option α := (l.find? (fun p => p.1 == k)).map (·.2)

/-- Position by position. -/
def mapLvl {α β : Type} (l : List α) (f : Nat → α → β) : List β := l.zipIdx.map fun p => f p.2 p.1

end Sys2Proof.Machine
end

