-- ==== Sys2Proof/Machine/Crypto.lean ====
section
/-! DEFINITION. The algorithms of Table 16-4 and the frame and entry check: CRC-32C (R233), SHA-256, HMAC-SHA-256,
AES-128-GCM and GMAC, and ECDSA over P-256 and P-384. -/

namespace Sys2Proof.Machine

/-- One bit of CRC-32C, reflected: the polynomial 0x1EDC6F41 read from its other end (R233). -/
def crcBit (c : BitVec 32) : BitVec 32 := if c.getLsbD 0 then (c >>> 1) ^^^ 0x82F63B78#32 else c >>> 1

/-- One byte of CRC-32C. -/
def crcByte (c : BitVec 32) (b : Byte) : BitVec 32 :=
  let x := c ^^^ b.setWidth 32
  crcBit (crcBit (crcBit (crcBit (crcBit (crcBit (crcBit (crcBit x)))))))

/-- CRC-32C with initial value and final XOR of all ones (R233). -/
def crc32c (bs : List Byte) : BitVec 32 := (bs.foldl crcByte 0xFFFFFFFF#32) ^^^ 0xFFFFFFFF#32

/-- The first n prime numbers in 2 to 311, by trial division (the constants of SHA-256 come from them). -/
def shaPrimes : List Nat := (List.range 312).filter fun n => 2 ≤ n ∧ (List.range 18).all fun d => d < 2 || n % d != 0 || n == d

/-- The whole cube root, bit by bit from bit i down. -/
def cubeRoot (x : Nat) : Nat → Nat → Nat
  | 0, r => r
  | i + 1, r => let t := r + 2 ^ i; cubeRoot x i (if t * t * t ≤ x then t else r)

/-- The 64 round constants: fractions of the cube roots of the first 64 primes. -/
def shaK : List (BitVec 32) := shaPrimes.map fun p => BitVec.ofNat 32 (cubeRoot (p * 2 ^ 96) 40 0)

/-- The initial hash value: fractions of the square roots of the first 8 primes. -/
def shaInit : List (BitVec 32) := (shaPrimes.take 8).map fun p => BitVec.ofNat 32 (Nat.sqrt (p * 2 ^ 64))

/-- Extends the message schedule; the list holds the last words, newest first. -/
def shaExtend : Nat → List (BitVec 32) → List (BitVec 32)
  | 0, w => w
  | n + 1, w =>
    let a := w.getD 14 0
    let b := w.getD 1 0
    let s0 := a.rotateRight 7 ^^^ a.rotateRight 18 ^^^ (a >>> 3)
    let s1 := b.rotateRight 17 ^^^ b.rotateRight 19 ^^^ (b >>> 10)
    shaExtend n ((w.getD 15 0 + s0 + w.getD 6 0 + s1) :: w)

/-- One round of the compression. -/
def shaRound (h : List (BitVec 32)) (kw : BitVec 32) : List (BitVec 32) :=
  match h with
  | [a, b, c, d, e, f, g, i] =>
    let t1 := i + (e.rotateRight 6 ^^^ e.rotateRight 11 ^^^ e.rotateRight 25) + ((e &&& f) ^^^ (~~~e &&& g)) + kw
    let t2 := (a.rotateRight 2 ^^^ a.rotateRight 13 ^^^ a.rotateRight 22) + ((a &&& b) ^^^ (a &&& c) ^^^ (b &&& c))
    [t1 + t2, a, b, c, d + t1, e, f, g]
  | other => other

/-- One block of 64 bytes. -/
def shaBlock (h : List (BitVec 32)) (blk : List Byte) : List (BitVec 32) :=
  let w0 := (List.range 16).map fun i => BitVec.ofNat 32 (beNat (bytesAt blk (4 * i) 4))
  let w := (shaExtend 48 w0.reverse).reverse
  let h' := ((List.zipWith (· + ·) shaK w).foldl shaRound h)
  List.zipWith (· + ·) h h'

/-- The message padded to whole blocks. -/
def shaPad (m : List Byte) : List Byte :=
  m ++ [0x80] ++ List.replicate ((119 - m.length % 64) % 64) 0 ++ beBytes 8 (8 * m.length)

/-- SHA-256. -/
def sha256 (m : List Byte) : List Byte :=
  let p := shaPad m
  ((List.range (p.length / 64)).foldl (fun h i => shaBlock h (bytesAt p (64 * i) 64)) shaInit).flatMap fun w => beBytes 4 w.toNat

/-- HMAC-SHA-256 under a key of at most 64 bytes. -/
def hmac (key m : List Byte) : List Byte :=
  let k := fitBytes 64 key
  sha256 (k.map (· ^^^ 0x5C) ++ sha256 (k.map (· ^^^ 0x36) ++ m))

/-- Multiplication by x in the field of AES. -/
def xtime (a : Byte) : Byte := (a <<< 1) ^^^ (if a.getLsbD 7 then 0x1B else 0)

/-- Multiplication in the field of AES, over the low n bits of b. -/
def gfMul : Nat → Byte → Byte → Byte
  | 0, _, _ => 0
  | n + 1, a, b => (if b.getLsbD 0 then a else 0) ^^^ gfMul n (xtime a) (b >>> 1)

/-- The inverse in the field of AES, as the power 254. -/
def gfInv (a : Byte) : Byte :=
  let m := fun x y => gfMul 8 x y
  let a2 := m a a
  let a4 := m a2 a2
  let a8 := m a4 a4
  let a16 := m a8 a8
  let a32 := m a16 a16
  let a64 := m a32 a32
  m (m a64 a64) (m a64 (m a32 (m a16 (m a8 (m a4 a2)))))

/-- The substitution box of AES. -/
def sbox (a : Byte) : Byte :=
  let b := gfInv a
  b ^^^ b.rotateLeft 1 ^^^ b.rotateLeft 2 ^^^ b.rotateLeft 3 ^^^ b.rotateLeft 4 ^^^ 0x63

/-- The next round key of AES-128 from the one before. -/
def nextKey (rcon : Byte) (k : List Byte) : List Byte :=
  let t := [sbox (k.getD 13 0) ^^^ rcon, sbox (k.getD 14 0), sbox (k.getD 15 0), sbox (k.getD 12 0)]
  let w0 := List.zipWith (· ^^^ ·) (bytesAt k 0 4) t
  let w1 := List.zipWith (· ^^^ ·) (bytesAt k 4 4) w0
  let w2 := List.zipWith (· ^^^ ·) (bytesAt k 8 4) w1
  let w3 := List.zipWith (· ^^^ ·) (bytesAt k 12 4) w2
  w0 ++ w1 ++ w2 ++ w3

/-- ShiftRows after SubBytes. -/
def subShift (s : List Byte) : List Byte := (List.range 16).map fun i => sbox (s.getD ((5 * i) % 16) 0)

/-- MixColumns. -/
def mixColumns (s : List Byte) : List Byte :=
  (List.range 16).map fun i =>
    let c := i / 4 * 4
    let g := fun j => s.getD (c + (i + j) % 4) 0
    xtime (g 0) ^^^ (xtime (g 1) ^^^ g 1) ^^^ g 2 ^^^ g 3

/-- The rounds of AES-128 after the first key addition: n rounds left. -/
def aesRounds : Nat → Byte → List Byte → List Byte → List Byte
  | 0, _, _, s => s
  | n + 1, rcon, k, s =>
    let k' := nextKey rcon k
    let t := subShift s
    aesRounds n (xtime rcon) k' (List.zipWith (· ^^^ ·) (if n = 0 then t else mixColumns t) k')

/-- One block of AES-128. -/
def aes128 (key blk : List Byte) : List Byte := aesRounds 10 1 key (List.zipWith (· ^^^ ·) blk key)

/-- Multiplication in the field of GCM, bit 127 first: n bits of x left. -/
def ghMul : Nat → BitVec 128 → BitVec 128 → BitVec 128 → BitVec 128
  | 0, _, _, z => z
  | n + 1, x, v, z =>
    let z' := if x.getLsbD n then z ^^^ v else z
    let v' := if v.getLsbD 0 then (v >>> 1) ^^^ (0xE1#128 <<< 120) else v >>> 1
    ghMul n x v' z'

/-- GHASH over whole blocks of the padded input. -/
def ghash (h : BitVec 128) (bs : List Byte) : BitVec 128 :=
  (List.range ((bs.length + 15) / 16)).foldl
    (fun y i => ghMul 128 (y ^^^ BitVec.ofNat 128 (beNat (bytesAt bs (16 * i) 16))) h 0) 0

/-- The counter block i of GCM for a 12-byte IV. -/
def gcmCounter (iv : List Byte) (i : Nat) : List Byte := fitBytes 12 iv ++ beBytes 4 i

/-- The tag of GCM over the additional data and the ciphertext. -/
def gcmTag (key iv aad ct : List Byte) : List Byte :=
  let h := BitVec.ofNat 128 (beNat (aes128 key (List.replicate 16 0)))
  let pad := fun (b : List Byte) => fitBytes ((b.length + 15) / 16 * 16) b
  let s := ghash h (pad aad ++ pad ct ++ beBytes 8 (8 * aad.length) ++ beBytes 8 (8 * ct.length))
  List.zipWith (· ^^^ ·) (beBytes 16 s.toNat) (aes128 key (gcmCounter iv 1))

/-- The counter mode of GCM, which both encrypts and decrypts. -/
def gcmCrypt (key iv ct : List Byte) : List Byte :=
  let n := (ct.length + 15) / 16
  List.zipWith (· ^^^ ·) ct ((List.range n).flatMap fun i => aes128 key (gcmCounter iv (i + 2)))

/-- AES-128-GMAC: the first 8 bytes are the TAG of a frame (R234). -/
def gmac (key iv aad : List Byte) : List Byte := gcmTag key iv aad []

/-- A prime curve y^2 = x^3 - 3x + b with its base point and order. -/
structure Curve where
  p  : Nat
  b  : Nat
  n  : Nat
  gx : Nat
  gy : Nat

/-- P-256. -/
def p256 : Curve where
  p := 0xffffffff00000001000000000000000000000000ffffffffffffffffffffffff
  b := 0x5ac635d8aa3a93e7b3ebbd55769886bc651d06b0cc53b0f63bce3c3e27d2604b
  n := 0xffffffff00000000ffffffffffffffffbce6faada7179e84f3b9cac2fc632551
  gx := 0x6b17d1f2e12c4247f8bce6e563a440f277037d812deb33a0f4a13945d898c296
  gy := 0x4fe342e2fe1a7f9b8ee7eb4a7c0f9e162bce33576b315ececbb6406837bf51f5

/-- P-384. -/
def p384 : Curve where
  p := 0xfffffffffffffffffffffffffffffffffffffffffffffffffffffffffffffffeffffffff0000000000000000ffffffff
  b := 0xb3312fa7e23ee7e4988e056be3f82d19181d9c6efe8141120314088f5013875ac656398d8a2ed19d2a85c8edd3ec2aef
  n := 0xffffffffffffffffffffffffffffffffffffffffffffffffc7634d81f4372ddf581a0db248b0a77aecec196accc52973
  gx := 0xaa87ca22be8b05378eb1c71ef320ad746e1d3b628ba79b9859f741e082542a385502f25dbf55296c3a545e3872760ab7
  gy := 0x3617de4a96262c6f5d9e98bf9292dc29f8f41dbd289a147ce9da3113b5f0b8c00a60b1ce1d7e819d7a431d7c90ea0e5f

/-- x to the power e modulo m, over the low k bits of e. -/
def powMod (m : Nat) : Nat → Nat → Nat → Nat
  | 0, _, _ => 1 % m
  | k + 1, x, e => let h := powMod m k (x * x % m) (e / 2); if e % 2 = 1 then h * x % m else h

/-- The inverse modulo a prime. -/
def invMod (m x : Nat) : Nat := powMod m 384 (x % m) (m - 2)

/-- The sum of two points; none is the point at infinity. -/
def ecAdd (c : Curve) : Option (Nat × Nat) → Option (Nat × Nat) → Option (Nat × Nat)
  | none, q => q
  | q, none => q
  | some (x1, y1), some (x2, y2) =>
    if x1 = x2 ∧ (y1 + y2) % c.p = 0 then none
    else
      let s := if x1 = x2 then (3 * x1 * x1 + 3 * (c.p - 1)) * invMod c.p (2 * y1) % c.p
               else (y2 + c.p - y1) * invMod c.p (x2 + c.p - x1) % c.p
      let x3 := (s * s + 2 * c.p - x1 - x2) % c.p
      some (x3, (s * (x1 + c.p - x3) + c.p - y1) % c.p)

/-- A multiple of a point, over the low k bits of e. -/
def ecMul (c : Curve) : Nat → Nat → Option (Nat × Nat) → Option (Nat × Nat)
  | 0, _, _ => none
  | k + 1, e, q => let h := ecMul c k (e / 2) (ecAdd c q q); if e % 2 = 1 then ecAdd c h q else h

/-- The base point. -/
def Curve.base (c : Curve) : Option (Nat × Nat) := some (c.gx, c.gy)

/-- ECDSA verification of a 32-byte digest under a public point. -/
def ecdsaVerify (c : Curve) (q : Nat × Nat) (digest : List Byte) (r s : Nat) : Bool :=
  let w := invMod c.n s
  let u1 := beNat digest % c.n * w % c.n
  let u2 := r * w % c.n
  decide (0 < r ∧ r < c.n ∧ 0 < s ∧ s < c.n) &&
    match ecAdd c (ecMul c 384 u1 c.base) (ecMul c 384 u2 (some q)) with
    | none => false
    | some (x, _) => x % c.n == r

/-- ECDSA over a 32-byte digest with private key d and per-signature number k: r then s. -/
def ecdsaSign (c : Curve) (d k : Nat) (digest : List Byte) : Nat × Nat :=
  match ecMul c 384 k c.base with
  | none => (0, 0)
  | some (x, _) => let r := x % c.n; (r, (beNat digest + r * d) % c.n * invMod c.n k % c.n)

end Sys2Proof.Machine
end

