-- ==== Sys2Proof/Machine/State.lean ====
section
/-! DEFINITION. The state of one SZ716 as plain data, its reset value, and the reasons a step can stop. Every field's
docstring names the place of spec/ that gives it, its reset value, and where that value comes from: spec, a log entry
(DC <n>), or the model's own bookkeeping (MODEL <n>). -/

namespace Sys2Proof.Machine

/-- Why the machine stops. -/
inductive Fault where
  /-- Raised by SUPPLY_BAND_CHANGE when the higher of VMAIN and VAUX lies above 65 V: Table 0-2 and R12 leave the device undefined
  there. Safe: the model stops where the manual describes nothing. -/
  | outsideEnvironment
  deriving DecidableEq, Repr

/-- Why the model has no meaning for a command. -/
inductive Refusal where
  /-- Raised by a refused arm of exec only: the command has no meaning yet. Safe. -/
  | notModelled (mnemonic : String)
  deriving DecidableEq, Repr

/-- Level states (Table 4-1). -/
inductive LevelSt where
  | bypassed | inserted | trim | parked | retired
  deriving DecidableEq, Repr

/-- Why levels are parked one by one (R102, Table 7-5b). -/
inductive ParkRun where
  | none | freezeExpiry | invalidPack
  deriving DecidableEq, Repr

/-- How far a shelf has come towards the string (Table 4-7). -/
inductive Adm where
  | out | checking | opening | ramp | admitted
  deriving DecidableEq, Repr

/-- The pack disconnect action of R89. -/
inductive Disconnect where
  | none | waiting | done | failed
  deriving DecidableEq, Repr

/-- Power states (Table 3-1); off is the unpowered state after HOLDUP_COLLAPSE. -/
inductive PState where
  | off | still | watch | run
  deriving DecidableEq, Repr

/-- How ring time is held (R66, R67). -/
inductive TimeState where
  | none | synced | holdover | lost
  deriving DecidableEq, Repr

/-- Kinds of wake (Table 3-2). -/
inductive WakeKind where
  | none | localWake | rackWake
  deriving DecidableEq, Repr

/-- Reset kinds whose recovery can be in progress (Table 3-6). -/
inductive ResetKind where
  | powerOn | brownOut | controller | activate
  deriving DecidableEq, Repr

/-- A running anchor (Table 7-5 ANCHOR). -/
inductive AnchorRun where
  | none | full | empty
  deriving DecidableEq, Repr

/-- Token states (Table 14-6 TOKEN). -/
inductive TokenState where
  | absent | valid | lost | invalid
  deriving DecidableEq, Repr

/-- Port states (Table 10-8). -/
inductive PortState where
  | down | training | up
  deriving DecidableEq, Repr

/-- Regulator states (Table 11-8). -/
inductive RailState where
  | off | checking | softStart | regulating | latchedOff | shuttingDown | burst
  deriving DecidableEq, Repr

/-- eFuse states (Table 11-9). -/
inductive EfuseState where
  | off | preCheck | ramping | on | limiting | tripped | damaged
  deriving DecidableEq, Repr

/-- The sequencer (R262, R264). -/
inductive SeqRun where
  | idle | starting | ended | lead | shutting
  deriving DecidableEq, Repr

/-- Life-cycle states (Table 16-2). -/
inductive LifeCycle where
  | blank | factory | provisioned | fielded | returned | retired
  deriving DecidableEq, Repr

/-- State of the inactive patch slot (Table 14-12). -/
inductive ImgState where
  | empty | partly | verified | failed
  deriving DecidableEq, Repr

/-- Why the secure partition refused a request (R361, R362): the level of the session or of the command, the maximum level of the mailbox, the
lockout, a wrong MAC, a key blob, a life-cycle transition, its signature, an image, or the state of the shelf. -/
inductive RefusalCause where
  | level | maximum | lockout | mac | blob | transition | signature | image | state
  deriving DecidableEq, Repr

/-- A recorder capture (R347). -/
inductive CapRun where
  | idle | running | holdoff
  deriving DecidableEq, Repr

/-- One parameter with the values of its elements, in units of its step (R319). -/
structure ParamRec where
  id   : Nat
  vals : List Int
  deriving DecidableEq, Repr

/-- One mailbox entry (Table 13-8) of a response queue. -/
structure Entry where
  opcode  : BitVec 16
  tag     : Byte
  flags   : Byte
  level   : Byte
  payload : List Byte
  deriving DecidableEq, Repr

/-- A latch of every cell's account (R169, R324): its ring time and the records of the present cells. -/
structure AccLatch where
  time    : Nat
  records : List (List Byte)
  deriving DecidableEq, Repr

/-- Plant limits per direction (Table 9-5): absent until a gateway gives them; in 0.1 A, or in kW when power is set. -/
structure PlantLimit where
  given : Bool
  power : Bool
  dis   : Rat
  ch    : Rat
  deriving DecidableEq, Repr

/-- No plant limit given. -/
def PlantLimit.reset : PlantLimit := ⟨false, false, 0, 0⟩

/-- A RACK_DISPATCH that waits for its apply time (R206, R327). -/
structure Dispatch where
  vd     : Rat
  apply  : Nat
  limits : PlantLimit
  deriving DecidableEq, Repr

/-- What a version report carries (Table 16-7), and what IMAGE_VERIFY returns. -/
structure VersionRep where
  pending : Bool
  version : BitVec 32
  proto   : BitVec 16
  bandMin : BitVec 32
  bandMax : BitVec 32
  deriving DecidableEq, Repr

/-- No active image (R370): VERSION 0 and the whole band. -/
def VersionRep.reset : VersionRep := ⟨false, 0, 0, 0, 0xFFFFFFFF⟩

/-- One MSG of the message transport (Table 10-10) with its retry state (R249). -/
structure Msg where
  dst   : Byte
  chan  : Byte
  seq   : Byte
  start : Bool
  data  : List Byte
  port  : Port
  tries : Nat
  due   : Nat
  deriving DecidableEq, Repr

/-- One recorder record (Table 15-4); intact is false for a slot that fails its CRC or BCH code. -/
structure Rec where
  seq     : BitVec 32
  opsec   : BitVec 32
  cycles  : BitVec 32
  rtime   : BitVec 32
  kind    : Byte
  source  : Byte
  rflags  : BitVec 4
  payload : List Byte
  intact  : Bool
  deriving DecidableEq, Repr

/-- One capture sample (Table 15-5, kind 0x06): its 40 payload bytes and its ring time. -/
structure CapSample where
  time    : Nat
  payload : List Byte
  deriving DecidableEq, Repr

/-- One entry of the precise buffer (R397). -/
structure Precise where
  step     : BitVec 64
  template : Byte
  event    : Byte
  latency  : BitVec 32
  deriving DecidableEq, Repr

/-- One trace entry (Table 18-4). -/
structure Trace where
  shoreT : BitVec 48
  fine   : BitVec 16
  kind   : Byte
  cpu    : Byte
  id     : BitVec 16
  data   : BitVec 32
  deriving DecidableEq, Repr

/-- One bus A transaction that waits (R381, R382): whether it is a token transaction, its target address, its register
byte and data, and the bytes to read. -/
structure BusTx where
  token : Bool
  addr  : BitVec 7
  bytes : List Byte
  read  : Nat
  deriving DecidableEq, Repr

/-- The empty request context. -/
def Req.reset : Req := ⟨.host, 0, .monitor⟩

/-- One ladder level (R80 to R82): its state and its sensed gates. -/
structure Level where
  /-- state of the level. 04_cell_ladder.md R81, R82 Table 4-2 STATE; reset .bypassed: spec. -/
  st : LevelSt
  /-- retired in the stuck-in form. 04_cell_ladder.md R82 Table 4-2 STUCK_IN (MRAM); reset false: spec. -/
  stuckIn : Bool
  /-- cause of the last park or of the retirement. 04_cell_ladder.md R82 Table 4-2 CAUSE, Table 4-3; reset 0: spec. -/
  cause : BitVec 4
  /-- result of the last pre-start check. 04_cell_ladder.md R82 Table 4-2 CHECK, Table 4-6; reset 0: spec. -/
  check : BitVec 3
  /-- held by a guard freeze. 04_cell_ladder.md R82 Table 4-2 FROZEN; reset false: spec. -/
  frozen : Bool
  /-- BSk above its UVLO rising threshold. 04_cell_ladder.md R82 Table 4-2 BS_OK, R91; reset false: spec. -/
  bsOk : Bool
  /-- the insert gate is on, as sensed. 04_cell_ladder.md R80, R91 (GIk; pull-downs of R40); reset false: spec. -/
  insGate : Bool
  /-- the bypass gate is on, as sensed. 04_cell_ladder.md R80, R91 (GBk; pull-downs of R40); reset false: spec. -/
  bypGate : Bool
  /-- marked for re-check at the next start. 04_cell_ladder.md R86, R90 (mark of LEVEL_CLEAR); reset false: DC 3. -/
  recheck : Bool
  /-- held with both gates off until its first pre-start check. 04_cell_ladder.md R91 (level held at power-up with a short); reset false: DC 3. -/
  powerShort : Bool
  /-- model time since which the cause of a guard park has been clear. 04_cell_ladder.md R98 (cause cleared for 1 s); reset none: DC 3. -/
  clearedAt : Option Nat
  /-- parked beside an open tap. 04_cell_ladder.md R98, 06_measurement.md R152; reset false: DC 3. -/
  tapPark : Bool
  deriving DecidableEq, Repr

/-- Level at reset. -/
def Level.reset : Level where
  st := .bypassed
  stuckIn := false
  cause := 0
  check := 0
  frozen := false
  bsOk := false
  insGate := false
  bypGate := false
  recheck := false
  powerShort := false
  clearedAt := none
  tapPark := false

/-- The guard's copy of its limits, in the shore domain (R95, Table 4-8). -/
structure GuardLimits where
  /-- cell over-voltage [mV]. 04_cell_ladder.md R96 Table 4-8; reset 3800: spec. -/
  ov : Nat
  /-- cell under-voltage [mV]. 04_cell_ladder.md R96 Table 4-8; reset 2300: spec. -/
  uv : Nat
  /-- cell over-temperature [degC]. 04_cell_ladder.md R96 Table 4-8; reset 70: spec. -/
  ot : Nat
  /-- shunt over-current [uV]. 04_cell_ladder.md R96 Table 4-8; reset 50000: spec. -/
  shuntOc : Nat
  /-- Hall over-current [A]. 04_cell_ladder.md R96 Table 4-8; reset 500: spec. -/
  hallOc : Nat
  deriving DecidableEq, Repr

/-- GuardLimits at reset. -/
def GuardLimits.reset : GuardLimits where
  ov := 3800
  uv := 2300
  ot := 70
  shuntOc := 50000
  hallOc := 500

/-- The ladder, the guard and admission (04_cell_ladder.md). -/
structure Ladder where
  /-- levels 1 to 16, position k - 1. 04_cell_ladder.md R80 to R82; reset List.replicate 16 Level.reset: spec. -/
  levels : List Level
  /-- the floating gate supplies have been judged (GATE_SUPPLY_UP has run). 02_package_and_supplies.md R40, 04_cell_ladder.md R91; reset false: spec. -/
  supplies : Bool
  /-- the shelf bypass switch is closed. 04_cell_ladder.md R99 (SBY_G; pulled to GND by R40); reset false: spec. -/
  sby : Bool
  /-- model time of the first freeze event of the running freeze. 04_cell_ladder.md R101 (freeze timer); reset none: DC 3. -/
  freezeAt : Option Nat
  /-- ring time of the freeze. 04_cell_ladder.md R101 (ring time of the freeze); reset 0: DC 3. -/
  freezeRing : Nat
  /-- a stepwise park in progress: freeze expiry or invalid pack. 04_cell_ladder.md R102, 12_temperature_and_faults.md R290; reset .none: DC 3. -/
  parkRun : ParkRun
  /-- model time of the next park step. 04_cell_ladder.md R102 (one every 50 us); reset 0: DC 3. -/
  parkNext : Nat
  /-- how far the shelf has come in its admission. 04_cell_ladder.md R92 Table 4-7; reset .out: DC 3. -/
  adm : Adm
  /-- levels still to be checked before this start. 04_cell_ladder.md R86; reset []: DC 3. -/
  checkLeft : List (Fin 16)
  /-- the LADDER_CHECK request that runs the check. 14_command_reference.md R322 (LADDER_CHECK running); reset none: DC 3. -/
  checkReq : Option Req
  /-- the next start is one that R86 checks before. 04_cell_ladder.md R86 (first start after configuration, leave from parked); reset true: DC 3. -/
  needCheck : Bool
  /-- present set value of the start ramp. 04_cell_ladder.md R93; reset 0: DC 3. -/
  rampV : Rat
  /-- model time of the next ramp step; before the ramp that of the opening of the shelf bypass switch, 10 us after the check. 04_cell_ladder.md R93, Table 4-7; reset 0: DC 3. -/
  rampNext : Nat
  /-- magnitude of the string current when the shelf bypass switch opened. 04_cell_ladder.md R94; reset 0: DC 3. -/
  abortRef : Rat
  /-- the last start was aborted. 04_cell_ladder.md R94, 09_rack_coordination.md Table 9-4 START_ABORT; reset false: spec. -/
  startAbort : Bool
  /-- out of service. 09_rack_coordination.md Table 9-4 OUT_OF_SERVICE, 12_temperature_and_faults.md R290; reset false: spec. -/
  oos : Bool
  /-- state of the pack disconnect action. 04_cell_ladder.md R89; reset .none: DC 3. -/
  disc : Disconnect
  /-- model time at which the pack disconnect is taken as failed. 04_cell_ladder.md R89 (100 ms); reset 0: DC 3. -/
  discDue : Nat
  /-- the guard's limits. 04_cell_ladder.md R95, Table 4-8; reset GuardLimits.reset: spec. -/
  guard : GuardLimits
  /-- levels a park command takes at the next period boundary. 14_command_reference.md R322 (LADDER_PARK acts at the next boundary); reset 0: DC 3. -/
  parkMask : BitVec 16
  /-- LADDER_PARK requests that wait for that boundary. 14_command_reference.md R322; reset []: DC 3. -/
  parkTag : List Req
  /-- since when the string current has been below 80 % of the over-current limit. 04_cell_ladder.md R98 (below 80 % for 10 ms); reset none: DC 3. -/
  quietSince : Option Nat
  /-- a park-all waits for the string current to stay quiet. 04_cell_ladder.md R98; reset false: DC 3. -/
  ocHold : Bool
  /-- since when the string current has been below 2 A. 05_ladder_modulation.md R123 (below 2 A for 10 ms); reset none: DC 3. -/
  idleSince : Option Nat
  /-- guard-parked levels are held until FAULT_CLEAR of bit 24. 04_cell_ladder.md R98, 12_temperature_and_faults.md Table 12-5 GUARD; reset false: DC 3. -/
  severeHold : Bool
  deriving DecidableEq, Repr

/-- Ladder at reset. -/
def Ladder.reset : Ladder where
  levels := List.replicate 16 Level.reset
  supplies := false
  sby := false
  freezeAt := none
  freezeRing := 0
  parkRun := .none
  parkNext := 0
  adm := .out
  checkLeft := []
  checkReq := none
  needCheck := true
  rampV := 0
  rampNext := 0
  abortRef := 0
  startAbort := false
  oos := false
  disc := .none
  discDue := 0
  guard := GuardLimits.reset
  parkMask := 0
  parkTag := []
  quietSince := none
  ocHold := false
  idleSince := none
  severeHold := false

/-- The scheduler, the trim carrier and the voltage loop (05_ladder_modulation.md). -/
structure Modulation where
  /-- number p of the present control period. 05_ladder_modulation.md R105; reset 0: DC 3. -/
  period : Nat
  /-- the voltage command in use. 05_ladder_modulation.md R106, 09_rack_coordination.md R203; reset 0: DC 3. -/
  vcmd : Rat
  /-- voltage of a COMMAND received for the next period. 05_ladder_modulation.md R105; reset none: DC 3. -/
  nextCmd : Option Rat
  /-- the period that nextCmd governs. 05_ladder_modulation.md R105, R106; reset 0: DC 3. -/
  nextFor : Nat
  /-- model time of the last valid COMMAND. 05_ladder_modulation.md R123, 09_rack_coordination.md R215; reset 0: DC 3. -/
  lastCmdAt : Nat
  /-- consecutive periods with no valid COMMAND. 09_rack_coordination.md R215; reset 0: DC 3. -/
  missedRun : Nat
  /-- voltage loop integrator x. 05_ladder_modulation.md R120 (x); reset 0: DC 3. -/
  integ : Rat
  /-- command outside the voltage range. 05_ladder_modulation.md R128 Table 5-3 VOLT_SAT; reset false: spec. -/
  voltSat : Bool
  /-- voltage met with limits exceeded. 05_ladder_modulation.md R128 Table 5-3 LIMIT_SAT; reset false: spec. -/
  limitSat : Bool
  /-- rotation stopped for the rest of the frame. 05_ladder_modulation.md R128 Table 5-3 BUDGET_SAT; reset false: spec. -/
  budgetSat : Bool
  /-- holding the last valid command. 05_ladder_modulation.md R128 Table 5-3 HOLD; reset false: spec. -/
  hold : Bool
  /-- the COMMAND of the next period is missing. 05_ladder_modulation.md R106, R122; reset false: DC 3. -/
  missNext : Bool
  /-- hold expired. 05_ladder_modulation.md R128 Table 5-3 HOLD_EXP; reset false: spec. -/
  holdExp : Bool
  /-- integrator at its limit. 05_ladder_modulation.md R128 Table 5-3 INT_LIM; reset false: spec. -/
  intLim : Bool
  /-- trim duty in the pulse-skipping band. 05_ladder_modulation.md R128 Table 5-3 PULSE_SKIP; reset false: spec. -/
  pulseSkip : Bool
  /-- carrier moving to a new phase. 05_ladder_modulation.md R128 Table 5-3 PHASE_SLEW; reset false: spec. -/
  phaseSlew : Bool
  /-- the level in trim. 05_ladder_modulation.md R128 Table 5-3 TRIM_LEVEL; reset none: spec. -/
  trim : Option (Fin 16)
  /-- duty of the trim level for this period. 05_ladder_modulation.md R110, R117; reset 0: DC 3. -/
  trimDuty : Rat
  /-- duty last latched by the timing hardware. 05_ladder_modulation.md R110; reset 0: DC 3. -/
  latched : Rat
  /-- width of the pulse of this carrier period [cycles of 3.2 GHz]. 05_ladder_modulation.md R110 (2h), R111; reset 0: DC 3. -/
  pulse : Nat
  /-- edges of that pulse at the gates, from the valley: bypass off, insert on, insert off, bypass on; none without a pulse and a gap. 05_ladder_modulation.md R110; reset []: DC 3. -/
  gateEdges : List Int
  /-- the pulse-skip accumulator. 05_ladder_modulation.md R111; reset 0: DC 3. -/
  accum : Rat
  /-- the carrier phase; none until one is assigned. 05_ladder_modulation.md R109, R113; reset none: spec. -/
  phase : Option Nat
  /-- the phase the carrier moves to. 05_ladder_modulation.md R113; reset 0: DC 3. -/
  phaseGoal : Nat
  /-- ring time at which that phase was assigned. 05_ladder_modulation.md R113 (next carrier valley); reset 0: DC 3. -/
  phaseSetAt : Nat
  /-- f(s) of the last entry. 09_rack_coordination.md R202 Table 9-2 SHARE; reset 0: DC 3. -/
  share : BitVec 16
  /-- j(s) of the last entry. 09_rack_coordination.md R202 Table 9-2 PHASE; reset 0: DC 3. -/
  phaseJ : BitVec 8
  /-- M of the last COMMAND that carried the entry. 09_rack_coordination.md R202 Table 9-2 M; reset 0: DC 3. -/
  interleave : BitVec 8
  /-- ADMIT of the last entry. 09_rack_coordination.md R202 Table 9-2 EFLAGS ADMIT; reset false: DC 3. -/
  eAdmit : Bool
  /-- HOLD_SHARE of the last entry. 09_rack_coordination.md R202 Table 9-2 EFLAGS HOLD_SHARE; reset false: DC 3. -/
  eHold : Bool
  /-- IN_SERVICE of the last entry. 09_rack_coordination.md R202 Table 9-2 EFLAGS IN_SERVICE; reset false: DC 3. -/
  eService : Bool
  /-- sum of d(k) over the periods of the frame so far. 05_ladder_modulation.md R117 (D(k)); reset List.replicate 16 0: DC 3. -/
  sumDuty : List Rat
  /-- insertion time of the frame so far [periods]. 05_ladder_modulation.md R117 (tau(k)); reset List.replicate 16 0: DC 3. -/
  sumTau : List Rat
  /-- deficit carried in from the frame before. 05_ladder_modulation.md R117; reset List.replicate 16 0: DC 3. -/
  carry : List Rat
  /-- insertion time of the present period [periods]. 05_ladder_modulation.md R120 (tau(k,p)); reset List.replicate 16 0: DC 3. -/
  tauNow : List Rat
  /-- sum of the usable INS samples of the period [V]. 05_ladder_modulation.md R120 (usable samples with INS); reset List.replicate 16 0: DC 3. -/
  vSum : List Rat
  /-- number of those samples. 05_ladder_modulation.md R120; reset List.replicate 16 0: DC 3. -/
  vCount : List Nat
  /-- sum of the current samples of the period. 05_ladder_modulation.md R115, R402; reset 0: DC 3. -/
  iSum : Rat
  /-- number of those samples. 05_ladder_modulation.md R115, R402; reset 0: DC 3. -/
  iCount : Nat
  /-- mean string current of the last period. 05_ladder_modulation.md R115 (|I|), R402; reset 0: DC 3. -/
  iMean : Rat
  /-- present direction: false discharge, true charge. 05_ladder_modulation.md R402; reset false: spec. -/
  charge : Bool
  /-- d(k) of the present period. 05_ladder_modulation.md R114; reset List.replicate 16 0: DC 3. -/
  duties : List Rat
  /-- the period that has just ended has been accounted for at this boundary. 05_ladder_modulation.md R105, R107; reset false: DC 3. -/
  closed : Bool
  /-- the ladder was frozen within the present period. 05_ladder_modulation.md R126; reset false: DC 3. -/
  frozenIn : Bool
  /-- level changes of the frame so far. 05_ladder_modulation.md R118; reset 0: DC 3. -/
  budgetUsed : Nat
  /-- frame length F in use. 05_ladder_modulation.md R107; reset 16: spec. -/
  frameLen : Nat
  /-- discharge L(k) latched at the frame boundary [A]. 05_ladder_modulation.md R116; reset List.replicate 16 0: DC 3. -/
  limDis : List Rat
  /-- charge L(k) latched at the frame boundary [A]. 05_ladder_modulation.md R116; reset List.replicate 16 0: DC 3. -/
  limCh : List Rat
  /-- s(k) latched at the frame boundary [%]. 05_ladder_modulation.md R116; reset List.replicate 16 none: DC 3. -/
  socLat : List (Option Rat)
  /-- h(k) latched at the frame boundary. 05_ladder_modulation.md R116; reset List.replicate 16 0: DC 3. -/
  hoffLat : List Rat
  /-- V(lo,s) of the last page-1 STATUS [10 mV]. 09_rack_coordination.md R203 Table 9-3 VLO; reset 0: DC 3. -/
  vlo : Nat
  /-- V(hi,s) of the last page-1 STATUS [10 mV]. 09_rack_coordination.md R203 Table 9-3 VHI; reset 0: DC 3. -/
  vhi : Nat
  deriving DecidableEq, Repr

/-- Modulation at reset. -/
def Modulation.reset : Modulation where
  period := 0
  vcmd := 0
  nextCmd := none
  nextFor := 0
  lastCmdAt := 0
  missedRun := 0
  integ := 0
  voltSat := false
  limitSat := false
  budgetSat := false
  hold := false
  missNext := false
  holdExp := false
  intLim := false
  pulseSkip := false
  phaseSlew := false
  trim := none
  trimDuty := 0
  latched := 0
  pulse := 0
  gateEdges := []
  accum := 0
  phase := none
  phaseGoal := 0
  phaseSetAt := 0
  share := 0
  phaseJ := 0
  interleave := 0
  eAdmit := false
  eHold := false
  eService := false
  sumDuty := List.replicate 16 0
  sumTau := List.replicate 16 0
  carry := List.replicate 16 0
  tauNow := List.replicate 16 0
  vSum := List.replicate 16 0
  vCount := List.replicate 16 0
  iSum := 0
  iCount := 0
  iMean := 0
  charge := false
  duties := List.replicate 16 0
  closed := false
  frozenIn := false
  budgetUsed := 0
  frameLen := 16
  limDis := List.replicate 16 0
  limCh := List.replicate 16 0
  socLat := List.replicate 16 none
  hoffLat := List.replicate 16 0
  vlo := 0
  vhi := 0

/-- Power state, clocks, resets and watchdogs (03_states_clocks_resets.md). -/
structure Clocks where
  /-- model time since reset [ns]. model's own time base (log entry 1); reset 0: MODEL 1. -/
  now : Nat
  /-- ring time [ns]. 03_states_clocks_resets.md R66, 15_storage_and_recorder.md Table 15-6; reset 0: DC 3. -/
  ring : Nat
  /-- ring time has been acquired since power-on reset. 15_storage_and_recorder.md R345 (NO_TIME); reset false: spec. -/
  ringKnown : Bool
  /-- highest ring time known. 10_relide_ring.md R245 (HIGH); reset 0: DC 3. -/
  high : Nat
  /-- power state. 03_states_clocks_resets.md R51, R52, 13_host_port_and_mailboxes.md Table 13-4 PSTATE; reset .watch: spec. -/
  pstate : PState
  /-- operating seconds. 15_storage_and_recorder.md R345, Table 15-6; reset 0: DC 3. -/
  opsec : BitVec 32
  /-- part of the running second already counted. 15_storage_and_recorder.md R345; reset 0: MODEL 1. -/
  opsecNs : Nat
  /-- power-cycle count. 15_storage_and_recorder.md Table 15-6, 03_states_clocks_resets.md Table 3-9; reset 0: DC 3. -/
  cycles : BitVec 32
  /-- the shore clock runs from XT32. 03_states_clocks_resets.md R64, R76; reset false: spec. -/
  shoreXtal : Bool
  /-- the selected crystal was lost. 03_states_clocks_resets.md R64 (flag); reset false: DC 3. -/
  shoreLost : Bool
  /-- 25 MHz crystal running and PLL locked. 03_states_clocks_resets.md R63 Table 3-4; reset false: spec. -/
  pll : Bool
  /-- PLL trim [1/1000 ppm]. 03_states_clocks_resets.md R63, R244; reset 0: DC 3. -/
  pllTrim : Int
  /-- how ring time is held: none, synced, holdover, lost. 03_states_clocks_resets.md R66, R67; reset .none: spec. -/
  timeState : TimeState
  /-- model time of the last valid SYNC. 03_states_clocks_resets.md R66; reset 0: DC 3. -/
  lastSync : Nat
  /-- ring time error still to be removed. 03_states_clocks_resets.md R67; reset 0: DC 3. -/
  phaseErr : Int
  /-- model time up to which the removal of that error has been counted. 03_states_clocks_resets.md R67; reset 0: DC 3. -/
  slewAt : Nat
  /-- end of the TSYNC pulse; none while TSYNC is low. 03_states_clocks_resets.md R68; reset none: spec. -/
  tsyncUntil : Option Nat
  /-- end of the WAKE_OUT pulse. 03_states_clocks_resets.md R54; reset none: spec. -/
  wakeOutUntil : Option Nat
  /-- shore timer expiry. 03_states_clocks_resets.md R53 Table 3-2; reset none: spec. -/
  wakeTimerAt : Option Nat
  /-- a wake request is latched. 03_states_clocks_resets.md R60, R79; reset false: spec. -/
  wakeLatch : Bool
  /-- model time until which a wake source is active in Run. 03_states_clocks_resets.md R58 (no wake source active); reset 0: DC 3. -/
  wakeActive : Nat
  /-- end of the minimum dwell in Still. 03_states_clocks_resets.md R60; reset 0: DC 3. -/
  dwellUntil : Nat
  /-- the wake being carried out: none, local, rack. 03_states_clocks_resets.md R53; reset .none: DC 3. -/
  wakeKind : WakeKind
  /-- the task of a local wake is not yet done. 03_states_clocks_resets.md R53; reset false: DC 3. -/
  localTask : Bool
  /-- model time until which the wake tone is sent on both ports; none before the first. 10_relide_ring.md R251 (200 us); reset none: DC 3. -/
  toneUntil : Option Nat
  /-- model time until which tones are ignored. 10_relide_ring.md R251 (ignores tones for 2 ms); reset 0: DC 3. -/
  toneDeaf : Nat
  /-- the shore coarse integrator is integrating. 03_states_clocks_resets.md R55; reset false: DC 3. -/
  coarseOn : Bool
  /-- the first SYNC after a rack wake has not been sent or taken yet. 03_states_clocks_resets.md R62; reset false: DC 3. -/
  firstSyncDue : Bool
  /-- shore-held ring times reported after a wake, by shelf. 03_states_clocks_resets.md R62; reset []: DC 3. -/
  shoreReports : List (Nat × Nat)
  /-- model time of the last service of the command processor watchdog. 03_states_clocks_resets.md R73; reset 0: DC 3. -/
  cpService : Nat
  /-- consecutive missed control-period deadlines. 03_states_clocks_resets.md R73; reset 0: DC 3. -/
  lpMissed : Nat
  /-- the reset whose recovery is not complete. 03_states_clocks_resets.md R72, R77; reset none: DC 3. -/
  inReset : Option ResetKind
  /-- model time of that reset. 03_states_clocks_resets.md R77; reset 0: DC 3. -/
  resetAt : Nat
  /-- the SZ716 drives RST_N low until then. 03_states_clocks_resets.md R74; reset none: DC 3. -/
  rstOwnUntil : Option Nat
  /-- RST_N driven low until VCORE and VIO18 are good. 03_states_clocks_resets.md R74; reset true: spec. -/
  rstOwnHold : Bool
  /-- RST_N is held low from outside. 03_states_clocks_resets.md R74; reset false: DC 3. -/
  rstExt : Bool
  /-- model times of the controller resets of the last 10 s. 12_temperature_and_faults.md Table 12-5 RESET; reset []: DC 3. -/
  resetTimes : List Nat
  /-- not-ready has not cleared. 03_states_clocks_resets.md R76, 13_host_port_and_mailboxes.md Table 13-4 READY; reset true: spec. -/
  notReady : Bool
  /-- pack authenticated at this start. 03_states_clocks_resets.md R76 Table 3-7; reset false: spec. -/
  authDone : Bool
  /-- ring links trained and ring time acquired. 03_states_clocks_resets.md R76 Table 3-7; reset false: spec. -/
  trained : Bool
  /-- journal replayed. 03_states_clocks_resets.md R76 Table 3-7; reset false: spec. -/
  replayed : Bool
  /-- the journal has not been replayed since power-on reset. 03_states_clocks_resets.md Table 3-9, 00_scope.md R10, R13; reset true: spec. -/
  coldPending : Bool
  /-- VCORE and VIO18 are good. 03_states_clocks_resets.md R74, R77; reset false: spec. -/
  railsGood : Bool
  /-- since when the string current has been below the wake threshold. 03_states_clocks_resets.md R58 (below the wake threshold for 1 s); reset none: DC 3. -/
  belowWake : Option Nat
  /-- temperature trim of the 64 MHz RC. 12_temperature_and_faults.md R280; reset 0: DC 3. -/
  rcTrim : Int
  /-- period of the 64 MHz RC as last measured against the PLL. 12_temperature_and_faults.md R278; reset 15625: DC 3. -/
  rcPs : Nat
  deriving DecidableEq, Repr

/-- Clocks at reset. -/
def Clocks.reset : Clocks where
  now := 0
  ring := 0
  ringKnown := false
  high := 0
  pstate := .watch
  opsec := 0
  opsecNs := 0
  cycles := 0
  shoreXtal := false
  shoreLost := false
  pll := false
  pllTrim := 0
  timeState := .none
  lastSync := 0
  phaseErr := 0
  slewAt := 0
  tsyncUntil := none
  wakeOutUntil := none
  wakeTimerAt := none
  wakeLatch := false
  wakeActive := 0
  dwellUntil := 0
  wakeKind := .none
  localTask := false
  toneUntil := none
  toneDeaf := 0
  coarseOn := false
  firstSyncDue := false
  shoreReports := []
  cpService := 0
  lpMissed := 0
  inReset := none
  resetAt := 0
  rstOwnUntil := none
  rstOwnHold := true
  rstExt := false
  resetTimes := []
  notReady := true
  authDone := false
  trained := false
  replayed := false
  coldPending := true
  railsGood := false
  belowWake := none
  rcTrim := 0
  rcPs := 15625

/-- Supplies, ORing and the hold-up store (02_package_and_supplies.md). -/
structure Supply where
  /-- VMAIN as last sensed. 02_package_and_supplies.md R36; reset 0: DC 3. -/
  vmain : Nat
  /-- VAUX as last sensed. 02_package_and_supplies.md R36; reset 0: DC 3. -/
  vaux : Nat
  /-- VOR as last sensed. 02_package_and_supplies.md R36; reset 0: DC 3. -/
  vor : Nat
  /-- the input that carries the load. 02_package_and_supplies.md R37, R38; reset .main: DC 3. -/
  carry : Carry
  /-- in shelf hold-up. 02_package_and_supplies.md R43; reset false: spec. -/
  holdup : Bool
  /-- voltage on VHOLD. 02_package_and_supplies.md R41; reset 0: DC 3. -/
  vhold : Nat
  /-- effective capacitance, 0 until it has been measured. 02_package_and_supplies.md R42; reset 0: DC 3. -/
  ceff : Nat
  /-- the hold-up store is taken as faulty. 02_package_and_supplies.md R46; reset false: spec. -/
  faulty : Bool
  /-- operating band. 02_package_and_supplies.md R34, 13_host_port_and_mailboxes.md Table 13-4 BAND; reset 0: spec. -/
  band : BitVec 2
  /-- the final counter record of this hold-up is still to be latched. 07_charge_and_capacity.md R156; reset false: DC 3. -/
  latchDue : Bool
  deriving DecidableEq, Repr

/-- Supply at reset. -/
def Supply.reset : Supply where
  vmain := 0
  vaux := 0
  vor := 0
  carry := .main
  holdup := false
  vhold := 0
  ceff := 0
  faulty := false
  band := 0
  latchDue := false

/-- One cell sample word (R130 Table 6-1) with its instant. -/
structure CellWord where
  /-- cell voltage [20 uV]. 06_measurement.md R129 Table 6-1 VALUE; reset 0: spec. -/
  value : BitVec 18
  /-- level sensed inserted. 06_measurement.md Table 6-1 INS; reset false: spec. -/
  ins : Bool
  /-- inside a blanking window. 06_measurement.md Table 6-1 BLANK; reset false: spec. -/
  blank : Bool
  /-- open-wire test current. 06_measurement.md Table 6-1 OWT; reset false: spec. -/
  owt : Bool
  /-- saturated. 06_measurement.md Table 6-1 CLIP; reset false: spec. -/
  clip : Bool
  /-- auto-zero slot. 06_measurement.md Table 6-1 ZERO; reset false: spec. -/
  zero : Bool
  /-- the channel has delivered a word. 06_measurement.md R132; reset false: DC 3. -/
  seen : Bool
  deriving DecidableEq, Repr

/-- CellWord at reset. -/
def CellWord.reset : CellWord where
  value := 0
  ins := false
  blank := false
  owt := false
  clip := false
  zero := false
  seen := false

/-- Samples of one cell that the step resistance rests on (R132, R133). -/
structure StepSample where
  /-- last usable INS sample and its ring time. 06_measurement.md R132; reset none: spec. -/
  vIns : Option (Rat × Nat)
  /-- last usable bypassed sample and its ring time. 06_measurement.md R132; reset none: spec. -/
  vByp : Option (Rat × Nat)
  /-- last usable sample B of a level bypassed or inserted: its INS, the current at its instant, and its period. 06_measurement.md R133; reset none: DC 3. -/
  before : Option (Rat × Bool × Rat × Nat)
  /-- r(k). 06_measurement.md R133; reset 1/2: spec. -/
  rStep : Rat
  /-- ring time of the last contribution since a reset. 06_measurement.md R133; reset none: spec. -/
  rAt : Option Nat
  deriving DecidableEq, Repr

/-- StepSample at reset. -/
def StepSample.reset : StepSample where
  vIns := none
  vByp := none
  before := none
  rStep := 1/2
  rAt := none

/-- One learned switch resistance bin (R145). -/
structure Bin where
  /-- mean of the readings taken. 06_measurement.md R145; reset 500: spec. -/
  ohm : Rat
  /-- readings the mean is taken over. 06_measurement.md R145; reset 0: DC 3. -/
  count : Nat
  /-- when the last 256 readings were taken, newest first. 06_measurement.md R145; reset []: DC 3. -/
  stamps : List Nat
  deriving DecidableEq, Repr

/-- Bin at reset. -/
def Bin.reset : Bin where
  ohm := 500
  count := 0
  stamps := []

/-- One NTC input (R140, R141). -/
structure Ntc where
  /-- last valid temperature. 06_measurement.md R140; reset none: DC 3. -/
  temp : Option Rat
  /-- consecutive invalid readings. 06_measurement.md R141; reset 0: spec. -/
  bad : Nat
  /-- consecutive valid readings while faulted. 06_measurement.md R141; reset 0: DC 3. -/
  good : Nat
  /-- the input stands faulted. 06_measurement.md R141; reset false: spec. -/
  faulted : Bool
  /-- the last reading was invalid. 06_measurement.md R141, 14_command_reference.md R323; reset false: DC 3. -/
  invalid : Bool
  /-- consecutive readings above the guard limit. 04_cell_ladder.md Table 4-8; reset 0: DC 3. -/
  hot : Nat
  /-- consecutive readings inside the charging window by the hysteresis. 12_temperature_and_faults.md R284; reset 0: DC 3. -/
  inCh : Nat
  /-- consecutive readings inside the discharge window by the hysteresis. 12_temperature_and_faults.md R284; reset 0: DC 3. -/
  inDis : Nat
  /-- the charge limit is withheld. 12_temperature_and_faults.md R284; reset false: DC 3. -/
  outCh : Bool
  /-- the discharge limit is withheld. 12_temperature_and_faults.md R284; reset false: DC 3. -/
  outDis : Bool
  deriving DecidableEq, Repr

/-- Ntc at reset. -/
def Ntc.reset : Ntc where
  temp := none
  bad := 0
  good := 0
  faulted := false
  invalid := false
  hot := 0
  inCh := 0
  inDis := 0
  outCh := false
  outDis := false

/-- Measurement (06_measurement.md). -/
structure Measure where
  /-- latest sample words. 06_measurement.md R129; reset List.replicate 16 CellWord.reset: spec. -/
  words : List CellWord
  /-- ring time of those words. 14_command_reference.md R323 (TIME); reset 0: DC 3. -/
  cellAt : Nat
  /-- ring time and model time of the last conversion of each channel: cells, shunt, Hall, stack, switch drops, NTC, and of the last 1 ms means. 06_measurement.md R129, R134, R136, R138 to R140, R150; reset List.replicate 7 none: DC 3. -/
  marks : List (Option (Nat × Nat))
  /-- factory gain trim of each channel: the 16 cell channels, shunt, Hall, stack, switch drops, NTC. 06_measurement.md R143 (power-die fuses); reset List.replicate 21 0: DC 3. -/
  trimGain : List Int
  /-- factory offset trim of the same channels. 06_measurement.md R143 (power-die fuses); reset List.replicate 21 0: DC 3. -/
  trimOff : List Int
  /-- samples discarded since the control die was reset. 03_states_clocks_resets.md R71; reset 0: DC 3. -/
  discarded : Nat
  /-- the gap marker with which the sample streams last resumed. 03_states_clocks_resets.md R71; reset none: DC 3. -/
  gapMark : Option Nat
  /-- last second in which an auto-zero was made. 06_measurement.md R130; reset 0: DC 3. -/
  zeroSec : Nat
  /-- offset corrections [20 uV]. 06_measurement.md R130; reset List.replicate 16 0: DC 3. -/
  offset : List Int
  /-- samples and r(k). 06_measurement.md R132, R133; reset List.replicate 16 StepSample.reset: spec. -/
  steps : List StepSample
  /-- string current of the last shunt sample. 06_measurement.md R134; reset 0: DC 3. -/
  current : Rat
  /-- CURRENT [100 uA]. 06_measurement.md Table 6-3 CURRENT; reset 0: spec. -/
  curWord : BitVec 24
  /-- CURRENT is the current of the Hall sensor. 06_measurement.md R137 Table 6-3 SRC; reset false: spec. -/
  src : Bool
  /-- the lower range is in use. 06_measurement.md Table 6-3 RANGE; reset false: spec. -/
  lowRange : Bool
  /-- samples still reported with HELD. 06_measurement.md R135; reset 0: spec. -/
  heldLeft : Nat
  /-- range-change hold. 06_measurement.md Table 6-3 HELD; reset false: spec. -/
  held : Bool
  /-- the source channel is at full scale or CURRENT is saturated. 06_measurement.md Table 6-3 CLIP; reset false: spec. -/
  clip : Bool
  /-- last shunt voltage. 06_measurement.md R134; reset 0: DC 3. -/
  shuntUv : Rat
  /-- since when the input has been below 6.25 mV. 06_measurement.md R134 (below 6.25 mV for 100 us); reset none: DC 3. -/
  quietUv : Option Nat
  /-- since when the shunt has clipped. 06_measurement.md R137 (clips for 10 ms); reset none: DC 3. -/
  clipSince : Option Nat
  /-- Hall current. 06_measurement.md R136; reset 0: DC 3. -/
  hallA : Rat
  /-- IHL as last sensed. 06_measurement.md R137; reset 2500: DC 3. -/
  hallMv : Nat
  /-- sum of the shunt samples of this 1 ms. 06_measurement.md R137; reset 0: DC 3. -/
  shuntSum : Rat
  /-- sum of the Hall samples of this 1 ms. 06_measurement.md R137; reset 0: DC 3. -/
  hallSum : Rat
  /-- shunt samples of this 1 ms. 06_measurement.md R137; reset 0: DC 3. -/
  shuntN : Nat
  /-- Hall samples of this 1 ms. 06_measurement.md R137; reset 0: DC 3. -/
  hallN : Nat
  /-- consecutive 1 ms means that disagree. 06_measurement.md R137; reset 0: spec. -/
  disRun : Nat
  /-- shunt and Hall disagree. 06_measurement.md Table 6-7 CUR_DISAGREE; reset false: spec. -/
  disagree : Bool
  /-- counting on Hall. 06_measurement.md Table 6-7 SHUNT_FAIL; reset false: spec. -/
  shuntFail : Bool
  /-- IHL out of band. 06_measurement.md Table 6-7 HALL_FAIL; reset false: spec. -/
  hallFail : Bool
  /-- sum check outside tolerance. 06_measurement.md Table 6-7 SUM_FAIL; reset false: spec. -/
  sumFail : Bool
  /-- consecutive means that fail the sum check. 06_measurement.md R150; reset 0: spec. -/
  sumRun : Nat
  /-- taps under suspicion. 06_measurement.md R150 (TAP_SUSPECT), Table 6-7; reset []: spec. -/
  suspects : List Nat
  /-- taps confirmed open. 06_measurement.md Table 6-7 TAP_OPEN; reset 0: spec. -/
  tapOpen : BitVec 17
  /-- taps to test at the next start. 06_measurement.md R152 (tested at the next start); reset 0: DC 3. -/
  tapRetest : BitVec 17
  /-- since when the shunt temperature has been held (COMP_STALE). 06_measurement.md R144; reset none: spec. -/
  compBad : Option Nat
  /-- temperature used for R(shunt, T). 06_measurement.md R144; reset 25: DC 3. -/
  shuntT : Rat
  /-- R(shunt, T). 06_measurement.md R144; reset 1/10000: DC 3. -/
  shuntR : Rat
  /-- a switch resistance is extrapolated. 06_measurement.md Table 6-7 EXTRAP; reset false: spec. -/
  extrap : Bool
  /-- stack voltage. 06_measurement.md R138; reset 0: DC 3. -/
  stack : Rat
  /-- ladder output. 06_measurement.md R138; reset 0: DC 3. -/
  ladderOut : Rat
  /-- the next stack slot converts the stack input. 06_measurement.md R138 (alternates); reset true: DC 3. -/
  stackNext : Bool
  /-- last drop of each insert switch [mV]. 06_measurement.md R139; reset List.replicate 16 0: DC 3. -/
  dropInsert : List Rat
  /-- last drop of each bypass switch [mV]. 06_measurement.md R139; reset List.replicate 16 0: DC 3. -/
  dropBypass : List Rat
  /-- next level of the switch-drop scan. 06_measurement.md R139; reset 0: DC 3. -/
  dropSlot : Nat
  /-- bins of the insert switches. 06_measurement.md R145; reset List.replicate 16 (List.replicate 8 Bin.reset): spec. -/
  binIn : List (List Bin)
  /-- bins of the bypass switches. 06_measurement.md R145; reset List.replicate 16 (List.replicate 8 Bin.reset): spec. -/
  binBy : List (List Bin)
  /-- the bin the string current stands in. 06_measurement.md R145; reset 0: DC 3. -/
  binIdx : Nat
  /-- since when it has stood in that bin. 06_measurement.md R145 (inside the bin for 60 s); reset 0: DC 3. -/
  binSince : Nat
  /-- the NTC inputs. 06_measurement.md R140, R141; reset List.replicate 24 Ntc.reset: spec. -/
  ntc : List Ntc
  /-- next slot of the NTC scan. 06_measurement.md R140 (25 slots); reset 0: DC 3. -/
  ntcSlot : Nat
  /-- last TREF ratio. 06_measurement.md R140; reset 1/2: DC 3. -/
  tref : Rat
  /-- sums of the usable samples of this 1 ms [V]. 06_measurement.md R150; reset List.replicate 16 0: DC 3. -/
  vSum1 : List Rat
  /-- numbers of those samples. 06_measurement.md R150; reset List.replicate 16 0: DC 3. -/
  vN1 : List Nat
  /-- sums of the usable INS samples of this 1 ms [V]. 07_charge_and_capacity.md R160 (mean of v(ins,k)); reset List.replicate 16 0: DC 3. -/
  insSum1 : List Rat
  /-- numbers of those samples. 07_charge_and_capacity.md R160; reset List.replicate 16 0: DC 3. -/
  insN1 : List Nat
  /-- the last ten 1 ms means of every cell, newest first. 06_measurement.md R150 (within 10 ms); reset []: DC 3. -/
  means : List (List Rat)
  /-- the last 1 ms mean of v(ins,k). 07_charge_and_capacity.md R160; reset List.replicate 16 none: DC 3. -/
  insMean : List (Option Rat)
  /-- 1 s mean cell voltages. 07_charge_and_capacity.md R160, 09_rack_coordination.md R204; reset List.replicate 16 0: DC 3. -/
  mean1s : List Rat
  /-- 1 ms means gathered towards the 1 s mean. 07_charge_and_capacity.md R160, 09_rack_coordination.md R204; reset List.replicate 16 (0, 0): DC 3. -/
  acc1s : List (Rat × Nat)
  /-- 1 s means of v(ins,k). 07_charge_and_capacity.md R160; reset List.replicate 16 0: DC 3. -/
  ins1s : List Rat
  /-- 1 ms means of v(ins,k) gathered towards the 1 s mean. 07_charge_and_capacity.md R160; reset List.replicate 16 (0, 0): DC 3. -/
  insAcc1s : List (Rat × Nat)
  /-- sum of the stack samples of this 1 ms. 06_measurement.md R150; reset 0: DC 3. -/
  stackSum : Rat
  /-- number of those samples. 06_measurement.md R150; reset 0: DC 3. -/
  stackN : Nat
  /-- the tap tests are running. 06_measurement.md R151; reset false: DC 3. -/
  tapTest : Bool
  /-- control periods since the tests of the first suspect tap began. 06_measurement.md R151; reset none: DC 3. -/
  tapRun : Option Nat
  /-- the levels that the insertion-difference tests of that tap go over. 06_measurement.md R151; reset []: DC 3. -/
  tapPlan : List Nat
  /-- ladder-output samples of the tests with the period of the tests they were taken in. 06_measurement.md R151; reset []: DC 3. -/
  tapOut : List (Nat × Rat)
  /-- the tap under the open-wire test. 06_measurement.md R151; reset none: DC 3. -/
  owtTap : Option Nat
  /-- IHL outside 0.25 V to 4.75 V at the last sample. 06_measurement.md R137; reset false: DC 3. -/
  hallLost : Bool
  /-- correction of the converter references. 06_measurement.md R143, 12_temperature_and_faults.md R280; reset 0: DC 3. -/
  refCorr : Int
  deriving DecidableEq, Repr

/-- Measure at reset. -/
def Measure.reset : Measure where
  words := List.replicate 16 CellWord.reset
  cellAt := 0
  marks := List.replicate 7 none
  trimGain := List.replicate 21 0
  trimOff := List.replicate 21 0
  discarded := 0
  gapMark := none
  zeroSec := 0
  offset := List.replicate 16 0
  steps := List.replicate 16 StepSample.reset
  current := 0
  curWord := 0
  src := false
  lowRange := false
  heldLeft := 0
  held := false
  clip := false
  shuntUv := 0
  quietUv := none
  clipSince := none
  hallA := 0
  hallMv := 2500
  shuntSum := 0
  hallSum := 0
  shuntN := 0
  hallN := 0
  disRun := 0
  disagree := false
  shuntFail := false
  hallFail := false
  sumFail := false
  sumRun := 0
  suspects := []
  tapOpen := 0
  tapRetest := 0
  compBad := none
  shuntT := 25
  shuntR := 1/10000
  extrap := false
  stack := 0
  ladderOut := 0
  stackNext := true
  dropInsert := List.replicate 16 0
  dropBypass := List.replicate 16 0
  dropSlot := 0
  binIn := List.replicate 16 (List.replicate 8 Bin.reset)
  binBy := List.replicate 16 (List.replicate 8 Bin.reset)
  binIdx := 0
  binSince := 0
  ntc := List.replicate 24 Ntc.reset
  ntcSlot := 0
  tref := 1/2
  vSum1 := List.replicate 16 0
  vN1 := List.replicate 16 0
  insSum1 := List.replicate 16 0
  insN1 := List.replicate 16 0
  means := []
  insMean := List.replicate 16 none
  mean1s := List.replicate 16 0
  acc1s := List.replicate 16 (0, 0)
  ins1s := List.replicate 16 0
  insAcc1s := List.replicate 16 (0, 0)
  stackSum := 0
  stackN := 0
  tapTest := false
  tapRun := none
  tapPlan := []
  tapOut := []
  owtTap := none
  hallLost := false
  refCorr := 0

/-- Anchors, span and capacity of one cell (R158 to R165, Table 7-5). -/
structure Anchor where
  /-- counter value stored at the anchor. 07_charge_and_capacity.md Table 7-5c QF or QE; reset 0: spec. -/
  q : Int
  /-- ring time of the anchor. 07_charge_and_capacity.md Table 7-5c TF or TE; reset 0: spec. -/
  time : Nat
  /-- a valid anchor exists for the bound pack. 07_charge_and_capacity.md Table 7-5 ANCH_F, ANCH_E; reset false: spec. -/
  valid : Bool
  deriving DecidableEq, Repr

/-- Anchor at reset. -/
def Anchor.reset : Anchor where
  q := 0
  time := 0
  valid := false

/-- The account of one cell (07_charge_and_capacity.md). -/
structure CellAcc where
  /-- gross charge in [2^-16 LSB]. 07_charge_and_capacity.md Table 7-1 Qin(k); reset 0: DC 3. -/
  qin : Nat
  /-- gross charge out [2^-16 LSB]. 07_charge_and_capacity.md Table 7-1 Qout(k); reset 0: DC 3. -/
  qout : Nat
  /-- full anchor. 07_charge_and_capacity.md R160; reset Anchor.reset: spec. -/
  full : Anchor
  /-- empty anchor. 07_charge_and_capacity.md R161; reset Anchor.reset: spec. -/
  empty : Anchor
  /-- capacity. 07_charge_and_capacity.md R164 C(k), Table 7-6; reset 300000: spec. -/
  cap : Rat
  /-- capacity learned. 07_charge_and_capacity.md Table 7-5 CAP_L; reset false: spec. -/
  capLearned : Bool
  /-- no span has closed qualified since the binding. 07_charge_and_capacity.md R164 (first qualified span after binding); reset true: DC 3. -/
  spanFirst : Bool
  /-- s(k); none while invalid. 07_charge_and_capacity.md R158; reset none: spec. -/
  soc : Option Rat
  /-- the anchor in progress. 07_charge_and_capacity.md Table 7-5 ANCHOR; reset .none: spec. -/
  running : AnchorRun
  /-- a completion that waits for the pack to authenticate. 07_charge_and_capacity.md R162, Table 7-5 ANCHOR 0x3; reset none: spec. -/
  provisional : Option AnchorRun
  /-- taper limit. 07_charge_and_capacity.md R160 L(taper,k); reset none: spec. -/
  taper : Option Rat
  /-- since when the hold conditions have held. 07_charge_and_capacity.md R160; reset none: DC 3. -/
  holdSince : Option Nat
  /-- since when the current has been below the window. 07_charge_and_capacity.md Table 7-3 (below I(F) or I(E) for 10 s); reset none: DC 3. -/
  lowSince : Option Nat
  /-- Q(k) at the start of this second. 07_charge_and_capacity.md R160; reset 0: DC 3. -/
  qSec : Int
  /-- 1 s mean cell current, positive into the cell. 07_charge_and_capacity.md R160; reset none: DC 3. -/
  iSec : Option Rat
  /-- a span is open and qualified so far. 07_charge_and_capacity.md Table 7-5 SPAN_OPEN; reset false: spec. -/
  spanOpen : Bool
  /-- the open span began at a full anchor. 07_charge_and_capacity.md R164; reset false: DC 3. -/
  spanFull : Bool
  /-- ring time at which it began. 07_charge_and_capacity.md R164; reset 0: DC 3. -/
  spanAt : Nat
  /-- Q(k) at which it began. 07_charge_and_capacity.md R164; reset 0: DC 3. -/
  spanQ : Int
  /-- first disqualifying cause met by the open span. 07_charge_and_capacity.md R165; reset 0: DC 3. -/
  spanDq : BitVec 3
  /-- a span has been opened and not closed. 07_charge_and_capacity.md R164; reset false: DC 3. -/
  spanStarted : Bool
  /-- C(k), CAP_L and spanFirst before the span that the last completion closed; none when it closed none qualified. 07_charge_and_capacity.md R165 (events at the ring time of the completion); reset none: DC 3. -/
  closing : Option (Rat × Bool × Bool)
  /-- time within the span on Hall, RC or stale compensation. 07_charge_and_capacity.md Table 7-4 cause 0x6; reset 0: DC 3. -/
  srcTime : Nat
  /-- cause of the last disqualified span. 07_charge_and_capacity.md Table 7-5 DQ_CAUSE; reset 0: spec. -/
  dqCause : BitVec 3
  /-- Q(k) at the binding. 07_charge_and_capacity.md R168 Q(B,k); reset 0: DC 3. -/
  qb : Int
  /-- P(k) at the binding. 07_charge_and_capacity.md R168 P(B,k); reset 0: DC 3. -/
  pb : Int
  deriving DecidableEq, Repr

/-- CellAcc at reset. -/
def CellAcc.reset : CellAcc where
  qin := 0
  qout := 0
  full := Anchor.reset
  empty := Anchor.reset
  cap := 300000
  capLearned := false
  spanFirst := true
  soc := none
  running := .none
  provisional := none
  taper := none
  holdSince := none
  lowSince := none
  qSec := 0
  iSec := none
  spanOpen := false
  spanFull := false
  spanAt := 0
  spanQ := 0
  spanDq := 0
  spanStarted := false
  closing := none
  srcTime := 0
  dqCause := 0
  qb := 0
  pb := 0

/-- Charge accounting and the cell pack (07_charge_and_capacity.md). -/
structure Charge where
  /-- accounts of cells 1 to 16. 07_charge_and_capacity.md R154 Table 7-1; reset List.replicate 16 CellAcc.reset: DC 3. -/
  cells : List CellAcc
  /-- net string charge [2^-16 LSB]. 07_charge_and_capacity.md Table 7-1 S; reset 0: DC 3. -/
  sNet : Int
  /-- the part of S carried while no cell was in the string. 07_charge_and_capacity.md Table 7-1 B; reset 0: DC 3. -/
  bNet : Int
  /-- a counter at its limit. 07_charge_and_capacity.md Table 7-5 SAT; reset false: spec. -/
  sat : Bool
  /-- restored from a final counter record. 07_charge_and_capacity.md Table 7-5 HOLDUP_CUT; reset false: spec. -/
  holdupCut : Bool
  /-- interval time base on the RC. 07_charge_and_capacity.md Table 7-5 CLK_RC; reset false: spec. -/
  clkRc : Bool
  /-- the counters stand latched in the final counter record. 07_charge_and_capacity.md R156 (hold-up); reset false: DC 3. -/
  latched : Bool
  /-- charge that the coarse integrator has gathered. 07_charge_and_capacity.md Table 7-2, 03_states_clocks_resets.md R55; reset 0: DC 3. -/
  coarseQ : Rat
  /-- its last reading of the string current. 07_charge_and_capacity.md Table 7-2, 03_states_clocks_resets.md R55; reset 0: DC 3. -/
  coarseI : Rat
  /-- model time of that reading. 03_states_clocks_resets.md R55; reset 0: DC 3. -/
  coarseAt : Nat
  /-- the current sample that begins the present interval. 07_charge_and_capacity.md R153; reset none: DC 3. -/
  lastI : Option Rat
  /-- insertion states of the held intervals. 06_measurement.md R135; reset []: DC 3. -/
  heldTins : List (List Nat × Bool)
  /-- model time of the next periodic counter commit. 07_charge_and_capacity.md R157; reset 0: DC 3. -/
  commitAt : Nat
  /-- bound pack ID. 07_charge_and_capacity.md R168; reset 0: DC 3. -/
  packId : BitVec 64
  /-- a pack is bound. 07_charge_and_capacity.md R168; reset false: DC 3. -/
  bound : Bool
  /-- ring time of the binding. 14_command_reference.md R324 BIND_TIME; reset 0: DC 3. -/
  bindTime : Nat
  /-- token state. 14_command_reference.md R324 TOKEN; reset .absent: DC 3. -/
  token : TokenState
  /-- two consecutive reads without a valid answer. 07_charge_and_capacity.md Table 7-5 TOKEN_LOST; reset false: spec. -/
  tokenLost : Bool
  /-- consecutive reads without a valid answer. 07_charge_and_capacity.md R167; reset 0: DC 3. -/
  misses : Nat
  /-- ring time of the last authentication. 14_command_reference.md R324 LAST_AUTH; reset 0: DC 3. -/
  lastAuth : Nat
  /-- the pack is held to be removed. 07_charge_and_capacity.md R167; reset false: DC 3. -/
  removed : Bool
  /-- an authentication attempt holds bus A. 07_charge_and_capacity.md R167, 16_security_lifecycle_update.md Table 16-1; reset false: DC 3. -/
  attempt : Bool
  /-- a fresh challenge is to follow. 07_charge_and_capacity.md R167; reset false: DC 3. -/
  attemptDue : Bool
  /-- the challenge of the attempt. 07_charge_and_capacity.md R166; reset []: DC 3. -/
  challenge : List Byte
  deriving DecidableEq, Repr

/-- Charge at reset. -/
def Charge.reset : Charge where
  cells := List.replicate 16 CellAcc.reset
  sNet := 0
  bNet := 0
  sat := false
  holdupCut := false
  clkRc := false
  latched := false
  coarseQ := 0
  coarseI := 0
  coarseAt := 0
  lastI := none
  heldTins := []
  commitAt := 0
  packId := 0
  bound := false
  bindTime := 0
  token := .absent
  tokenLost := false
  misses := 0
  lastAuth := 0
  removed := false
  attempt := false
  attemptDue := false
  challenge := []

/-- One impedance point: what is stored, and its open window (R191 to R193). -/
structure Imp where
  /-- real part of Z. 08_model_engine.md Table 8-6b RE; reset 0: DC 3. -/
  re : Rat
  /-- imaginary part of Z. 08_model_engine.md Table 8-6b IM; reset 0: DC 3. -/
  im : Rat
  /-- coherence. 08_model_engine.md Table 8-6b COH; reset 0: DC 3. -/
  coh : Nat
  /-- model time of storing; none = never stored. 08_model_engine.md Table 8-6b AGE; reset none: spec. -/
  stamp : Option Nat
  /-- stream samples of the open sub-window. 08_model_engine.md R191; reset 0: DC 3. -/
  n : Nat
  /-- voltage times cosine, summed. 08_model_engine.md R191; reset 0: DC 3. -/
  vc : Rat
  /-- voltage times sine, summed. 08_model_engine.md R191; reset 0: DC 3. -/
  vs : Rat
  /-- current times cosine, summed. 08_model_engine.md R191; reset 0: DC 3. -/
  ic : Rat
  /-- current times sine, summed. 08_model_engine.md R191; reset 0: DC 3. -/
  si : Rat
  /-- these sums of the sub-windows that are complete. 08_model_engine.md R191; reset []: DC 3. -/
  subs : List (Rat × Rat × Rat × Rat)
  /-- stream samples of the open window. 08_model_engine.md Table 8-6b MEAN_I; reset 0: DC 3. -/
  num : Nat
  /-- sum of the cell current over the open window. 08_model_engine.md Table 8-6b MEAN_I; reset 0: DC 3. -/
  iSum : Rat
  /-- sum of the cell temperature over the open window. 08_model_engine.md Table 8-6b TEMP; reset 0: DC 3. -/
  tSum : Rat
  /-- time for which the open window has paused. 08_model_engine.md R192; reset 0: DC 3. -/
  paused : Nat
  deriving DecidableEq, Repr

/-- Imp at reset. -/
def Imp.reset : Imp where
  re := 0
  im := 0
  coh := 0
  stamp := none
  n := 0
  vc := 0
  vs := 0
  ic := 0
  si := 0
  subs := []
  num := 0
  iSum := 0
  tSum := 0
  paused := 0

/-- One interval of the streams that the fabric forms for the impedance function (R191). -/
structure Stream where
  /-- number of the interval in ring time. 08_model_engine.md R191; reset 0: DC 3. -/
  slot : Nat
  /-- sum of q(k,i) [2^-16 LSB]. 08_model_engine.md R191; reset List.replicate 16 0: DC 3. -/
  q : List Int
  /-- sum of c(i) [2^-16 LSB]. 08_model_engine.md R192; reset 0: DC 3. -/
  c : Int
  /-- sum and number of the usable cell samples [V]. 08_model_engine.md R191; reset List.replicate 16 (0, 0): DC 3. -/
  v : List (Rat × Nat)
  deriving DecidableEq, Repr

/-- Stream at reset. -/
def Stream.reset : Stream where
  slot := 0
  q := List.replicate 16 0
  c := 0
  v := List.replicate 16 (0, 0)

/-- One member of a tile's ensemble (R173, R178 to R180). -/
structure Member where
  /-- its perturbed parameters. 08_model_engine.md Table 8-1, R180; reset []: DC 3. -/
  params : List Rat
  /-- its model states. 08_model_engine.md Table 8-1, R178; reset []: DC 3. -/
  x : List Rat
  /-- its weight. 08_model_engine.md R179; reset 0: DC 3. -/
  weight : Rat
  /-- model time until which it is left out of the outputs. 08_model_engine.md R196; reset none: DC 3. -/
  late : Option Nat
  /-- mean square of its voltage residuals at its last step. 08_model_engine.md R182, Table 8-9a; reset 0: DC 3. -/
  sq : Rat
  deriving DecidableEq, Repr

/-- Member at reset. -/
def Member.reset : Member where
  params := []
  x := []
  weight := 0
  late := none
  sq := 0

/-- One output buffer of a tile (R186). -/
structure EngOut where
  /-- charge limit. 08_model_engine.md R185, R187; reset 0: DC 3. -/
  limCh : Rat
  /-- discharge limit. 08_model_engine.md R185, R187; reset 0: DC 3. -/
  limDis : Rat
  /-- plating margin; none = not formed. 08_model_engine.md Table 8-7 PLATING; reset none: DC 3. -/
  plating : Option Rat
  /-- core temperature. 08_model_engine.md Table 8-7 CORE_T; reset 0: DC 3. -/
  coreT : Rat
  /-- lithium inventory of the median member. 08_model_engine.md Table 8-7 LLI; reset 0: DC 3. -/
  lli : Rat
  /-- rho(k); none = not formed. 08_model_engine.md R189; reset none: spec. -/
  rratio : Option Rat
  /-- ring time of the step. 08_model_engine.md Table 8-7 TIME; reset 0: DC 3. -/
  stepTime : Nat
  /-- it holds engine outputs. 08_model_engine.md R189; reset false: DC 3. -/
  ready : Bool
  deriving DecidableEq, Repr

/-- EngOut at reset. -/
def EngOut.reset : EngOut where
  limCh := 0
  limDis := 0
  plating := none
  coreT := 0
  lli := 0
  rratio := none
  stepTime := 0
  ready := false

/-- One engine tile and the cell it serves (R172 to R189). -/
structure Tile where
  /-- the cell it serves; none for a spare (set by State.reset for its own level). 08_model_engine.md R172, R197; reset none: DC 3. -/
  cell : Option (Fin 16)
  /-- withdrawn until power-on reset. 08_model_engine.md Table 8-9 TILE_FAULT; reset false: spec. -/
  fault : Bool
  /-- in warm-up. 08_model_engine.md Table 8-9 WARMUP; reset false: spec. -/
  warmup : Bool
  /-- model time at which the warm-up began. 08_model_engine.md R182; reset 0: DC 3. -/
  warmAt : Nat
  /-- ensemble collapse. 08_model_engine.md Table 8-9 COLLAPSE; reset false: spec. -/
  collapse : Bool
  /-- model time since which the voltage residual of every member is above the collapse threshold. 08_model_engine.md Table 8-9a, R179; reset none: DC 3. -/
  overSince : Option Nat
  /-- the members. 08_model_engine.md Table 8-1, R178; reset []: spec. -/
  members : List Member
  /-- parameter block: the values about which the members were drawn. 08_model_engine.md Table 8-1; reset []: DC 3. -/
  block : List Rat
  /-- mean square voltage residual of the ensemble [mV squared] by the model time of its step, newest first, over 1 s. 08_model_engine.md R182, Table 8-7 RESID; reset []: DC 3. -/
  resid : List (Nat × Rat)
  /-- a step is in progress. 08_model_engine.md R178; reset false: DC 3. -/
  stepping : Bool
  /-- i(k) latched for the step. 08_model_engine.md R178; reset 0: DC 3. -/
  inI : Rat
  /-- string current latched for the step. 08_model_engine.md R179; reset 0: DC 3. -/
  inStr : Rat
  /-- usable cell samples of the step with their INS tags [V]. 08_model_engine.md R178; reset []: DC 3. -/
  inV : List (Rat × Bool)
  /-- cell NTC temperature latched for the step. 08_model_engine.md R178; reset 25: DC 3. -/
  inT : Rat
  /-- coolant inlet temperature latched for the step. 08_model_engine.md R178; reset 25: DC 3. -/
  inCool : Rat
  /-- the front buffer. 08_model_engine.md R186; reset EngOut.reset: DC 3. -/
  front : EngOut
  /-- the buffer as it stood before the last swap. 08_model_engine.md R186; reset EngOut.reset: DC 3. -/
  back : EngOut
  /-- ring time of the last swap. 08_model_engine.md R186; reset none: DC 3. -/
  swapAt : Option Nat
  /-- impedance points. 08_model_engine.md R190, R191; reset List.replicate 32 Imp.reset: spec. -/
  points : List Imp
  /-- mean cell current of the last stored window. 08_model_engine.md Table 8-6b MEAN_I; reset 0: DC 3. -/
  impI : Rat
  /-- mean temperature of that window. 08_model_engine.md Table 8-6b TEMP; reset 0: DC 3. -/
  impT : Rat
  /-- ring time of the last stored point. 08_model_engine.md Table 8-6b TIME; reset 0: DC 3. -/
  impTime : Nat
  /-- s(k) at that time. 08_model_engine.md Table 8-6b SOC; reset none: DC 3. -/
  impSoc : Option Rat
  deriving DecidableEq, Repr

/-- Tile at reset. -/
def Tile.reset : Tile where
  cell := none
  fault := false
  warmup := false
  warmAt := 0
  collapse := false
  overSince := none
  members := []
  block := []
  resid := []
  stepping := false
  inI := 0
  inStr := 0
  inV := []
  inT := 25
  inCool := 25
  front := EngOut.reset
  back := EngOut.reset
  swapAt := none
  points := List.replicate 32 Imp.reset
  impI := 0
  impT := 0
  impTime := 0
  impSoc := none

/-- The model engine (08_model_engine.md). -/
structure Engine where
  /-- tiles 1 to 16. 08_model_engine.md R171; reset List.replicate 16 Tile.reset: spec. -/
  tiles : List Tile
  /-- consecutive overruns. 08_model_engine.md Table 8-9a; reset 0: spec. -/
  overrunRun : Nat
  /-- model time of the last overrun. 08_model_engine.md Table 8-9 OVERRUN; reset none: spec. -/
  overrunAt : Option Nat
  /-- stopped by a fault. 08_model_engine.md Table 8-9a; reset false: spec. -/
  stopped : Bool
  /-- model time of the restart. 08_model_engine.md Table 8-9a; reset 0: DC 3. -/
  restartAt : Nat
  /-- the next step is skipped. 08_model_engine.md Table 8-9a; reset false: DC 3. -/
  skipNext : Bool
  /-- throttle level. 08_model_engine.md R195, Table 8-9 TLEVEL; reset 0: spec. -/
  throttle : Fin 4
  /-- throttle level to take at the next step boundary. 08_model_engine.md R195; reset 0: DC 3. -/
  throttleWant : Fin 4
  /-- model time at which the present level was entered. 08_model_engine.md R195; reset 0: DC 3. -/
  throttleAt : Nat
  /-- since when the die has been below the throttle threshold less the hysteresis. 08_model_engine.md R195; reset none: DC 3. -/
  coolSince : Option Nat
  /-- chip of the dither sequence. 08_model_engine.md R192; reset 0: DC 3. -/
  chip : Nat
  /-- learned set of each cell: median parameters. 08_model_engine.md R180, R176; reset List.replicate 16 none: spec. -/
  learned : List (Option (List Rat))
  /-- model time at which the learned sets are written next. 08_model_engine.md R180; reset 0: DC 3. -/
  learnedAt : Nat
  /-- charge placed at negative margin since the binding, by cell [mC]. 08_model_engine.md Table 8-7 PLATED; reset List.replicate 16 0: spec. -/
  plated : List Rat
  /-- ring time of the last step boundary. 08_model_engine.md R178; reset 0: DC 3. -/
  lastStep : Nat
  /-- sum of q(k,i) over the step [2^-16 LSB]. 08_model_engine.md R178; reset List.replicate 16 0: DC 3. -/
  qStep : List Int
  /-- sum of c(i) over the step [2^-16 LSB]. 08_model_engine.md R178, R179; reset 0: DC 3. -/
  cStep : Int
  /-- usable cell samples of the step so far, with their INS tags [V]. 08_model_engine.md R178; reset List.replicate 16 []: DC 3. -/
  vStep : List (List (Rat × Bool))
  /-- the interval of the 20 kS/s stream under way. 08_model_engine.md R191; reset Stream.reset: DC 3. -/
  fast : Stream
  /-- the interval of the 1 kS/s stream under way. 08_model_engine.md R191; reset Stream.reset: DC 3. -/
  slow : Stream
  /-- direction of the string current in the open windows. 08_model_engine.md R192; reset false: DC 3. -/
  dirSign : Bool
  /-- stopped by BLOCK_GATE. 14_command_reference.md R317; reset false: spec. -/
  gated : Bool
  deriving DecidableEq, Repr

/-- Engine at reset. -/
def Engine.reset : Engine where
  tiles := List.replicate 16 Tile.reset
  overrunRun := 0
  overrunAt := none
  stopped := false
  restartAt := 0
  skipNext := false
  throttle := 0
  throttleWant := 0
  throttleAt := 0
  coolSince := none
  chip := 0
  learned := List.replicate 16 none
  learnedAt := 0
  plated := List.replicate 16 0
  lastStep := 0
  qStep := List.replicate 16 0
  cStep := 0
  vStep := List.replicate 16 []
  fast := Stream.reset
  slow := Stream.reset
  dirSign := false
  gated := false

/-- What the Wellhead holds of one shelf (R208, R212, R223). -/
structure ShelfRow where
  /-- model time of its last STATUS. 09_rack_coordination.md R220; reset none: DC 3. -/
  seen : Option Nat
  /-- its SFLAGS. 09_rack_coordination.md Table 9-4; reset 0: DC 3. -/
  sflags : BitVec 16
  /-- its last ILIM with DIR discharge. 09_rack_coordination.md Table 9-3 ILIM; reset 0xFFFF: DC 3. -/
  ilim : BitVec 16
  /-- its last ILIM with DIR charge. 09_rack_coordination.md Table 9-3 ILIM; reset 0xFFFF: DC 3. -/
  ilimCh : BitVec 16
  /-- its VLO. 09_rack_coordination.md Table 9-3 VLO; reset 0: DC 3. -/
  vlo : BitVec 16
  /-- its VHI. 09_rack_coordination.md Table 9-3 VHI; reset 0: DC 3. -/
  vhi : BitVec 16
  /-- its EDIS. 09_rack_coordination.md Table 9-3 EDIS; reset 0: DC 3. -/
  edis : BitVec 16
  /-- its ECH. 09_rack_coordination.md Table 9-3 ECH; reset 0: DC 3. -/
  ech : BitVec 16
  /-- its weight as the checkpoint gives it, until its first page-1 STATUS. 09_rack_coordination.md R216; reset 0: DC 3. -/
  wCk : Rat
  /-- its ITH. 09_rack_coordination.md Table 9-3 ITH; reset 0xFFFF: DC 3. -/
  ith : BitVec 16
  /-- its last ISTK with DIR discharge. 09_rack_coordination.md Table 9-3 ISTK; reset 0xFFFF: DC 3. -/
  istk : BitVec 16
  /-- its last ISTK with DIR charge. 09_rack_coordination.md Table 9-3 ISTK; reset 0xFFFF: DC 3. -/
  istkCh : BitVec 16
  /-- the frame boundary at which HOLD_SHARE ends after its cause has cleared. 09_rack_coordination.md R209; reset 0: DC 3. -/
  holdUntil : Nat
  /-- a page-1 STATUS has been received. 09_rack_coordination.md R208; reset false: DC 3. -/
  page1 : Bool
  /-- its configuration generation. 09_rack_coordination.md Table 9-3 GEN; reset 0: DC 3. -/
  gen : BitVec 32
  /-- its digest. 09_rack_coordination.md Table 9-3 DIGEST; reset 0: DC 3. -/
  digest : BitVec 64
  /-- consecutive mismatches. 09_rack_coordination.md R223; reset 0: spec. -/
  misRun : Nat
  /-- CFG_MISMATCH. 09_rack_coordination.md R223; reset false: spec. -/
  mismatch : Bool
  /-- its share f(s). 09_rack_coordination.md R208; reset 0: DC 3. -/
  share : BitVec 16
  /-- its last solved V(cmd,s). 09_rack_coordination.md R208 (HOLD_SHARE); reset 0: DC 3. -/
  vheld : Rat
  /-- it has sent STATUS with DIR in the direction of I(ref). 09_rack_coordination.md R213; reset true: DC 3. -/
  dirOk : Bool
  /-- its gates fell at the end of a hold-up: the string stays at 0 A until the contactor is reported open. 04_cell_ladder.md R103; reset false: DC 3. -/
  fell : Bool
  /-- its version report. 16_security_lifecycle_update.md R371; reset none: DC 3. -/
  version : Option VersionRep
  /-- holds the relayed image verified. 16_security_lifecycle_update.md R331 (HELD); reset false: DC 3. -/
  held : Bool
  /-- digest it acknowledged for the rack stage. 09_rack_coordination.md R224; reset none: DC 3. -/
  ackDigest : Option (BitVec 64)
  deriving DecidableEq, Repr

/-- ShelfRow at reset. -/
def ShelfRow.reset : ShelfRow where
  seen := none
  sflags := 0
  ilim := 0xFFFF
  ilimCh := 0xFFFF
  vlo := 0
  vhi := 0
  edis := 0
  ech := 0
  wCk := 0
  ith := 0xFFFF
  istk := 0xFFFF
  istkCh := 0xFFFF
  holdUntil := 0
  page1 := false
  gen := 0
  digest := 0
  misRun := 0
  mismatch := false
  share := 0
  vheld := 0
  dirOk := true
  fell := false
  version := none
  held := false
  ackDigest := none

/-- A Wellhead checkpoint (R216). -/
structure Checkpoint where
  /-- the epoch. 09_rack_coordination.md R216; reset 0: DC 3. -/
  epoch : BitVec 32
  /-- V(d) of the last dispatch; none while the configured one is in force. 09_rack_coordination.md R216, 14_command_reference.md R327; reset none: DC 3. -/
  vd : Option Rat
  /-- R(d). 09_rack_coordination.md R216; reset 100: DC 3. -/
  rd : Nat
  /-- plant limits. 09_rack_coordination.md R216; reset PlantLimit.reset: DC 3. -/
  plant : PlantLimit
  /-- trimmed R(path). 09_rack_coordination.md R216; reset 1/10: DC 3. -/
  rpath : Rat
  /-- bus hold-up state. 09_rack_coordination.md R216; reset false: DC 3. -/
  busHu : Bool
  /-- weights w(s) of the shelves [2^-16 of 0.01 kWh]. 09_rack_coordination.md R216; reset []: DC 3. -/
  weights : List Nat
  /-- the interleaved shelves in the order of their phase index. 09_rack_coordination.md R216, R113; reset []: DC 3. -/
  phases : List Nat
  /-- the admission in progress. 09_rack_coordination.md R216; reset none: DC 3. -/
  admits : Option Nat
  /-- sleep vote state. 09_rack_coordination.md R216; reset false: DC 3. -/
  vote : Bool
  /-- number of the last sleep vote. 09_rack_coordination.md R216; reset 0: DC 3. -/
  voteNo : BitVec 32
  /-- staged rack change. 09_rack_coordination.md R216; reset []: DC 3. -/
  staged : List ParamRec
  /-- succession list. 09_rack_coordination.md R216; reset []: DC 3. -/
  succ : List Nat
  /-- the period boundary of a planned handover, which the last checkpoint before it names. 09_rack_coordination.md R217; reset none: DC 3. -/
  boundary : Option Nat
  deriving DecidableEq, Repr

/-- Checkpoint at reset. -/
def Checkpoint.reset : Checkpoint where
  epoch := 0
  vd := none
  rd := 100
  plant := PlantLimit.reset
  rpath := 1/10
  busHu := false
  weights := []
  phases := []
  admits := none
  vote := false
  voteNo := 0
  staged := []
  succ := []
  boundary := none

/-- Rack coordination (09_rack_coordination.md). -/
structure Rack where
  /-- this SZ716 holds the Wellhead role. 09_rack_coordination.md R201, Table 1-4; reset false: spec. -/
  wellhead : Bool
  /-- epoch it leads with. 09_rack_coordination.md R217 (own epoch); reset 0: DC 3. -/
  epoch : BitVec 32
  /-- last obeyed leader epoch. 09_rack_coordination.md R221, 15_storage_and_recorder.md (leader epoch); reset 0: DC 3. -/
  obeyed : BitVec 32
  /-- a COMMAND has been obeyed. 14_command_reference.md R314 (WELLHEAD 0x00); reset false: spec. -/
  everObeyed : Bool
  /-- highest epoch seen. 09_rack_coordination.md R217, R219; reset 0: DC 3. -/
  highEpoch : BitVec 32
  /-- position of the Wellhead last obeyed. 14_command_reference.md R314; reset 0: spec. -/
  leader : Nat
  /-- leader declared lost. 09_rack_coordination.md R215; reset false: DC 3. -/
  lost : Bool
  /-- model time of that declaration. 09_rack_coordination.md R217; reset 0: DC 3. -/
  lostAt : Nat
  /-- no valid COMMAND of a newer epoch has come since the loss was declared. 09_rack_coordination.md R217; reset false: DC 3. -/
  lossOpen : Bool
  /-- model time of the member's Run entry. 09_rack_coordination.md R219; reset 0: DC 3. -/
  runAt : Nat
  /-- a COMMAND has been obeyed since power-on reset. 09_rack_coordination.md R219; reset false: spec. -/
  heardCmd : Bool
  /-- last observed or issued X. 09_rack_coordination.md R202 X; reset 0: DC 3. -/
  xLast : Rat
  /-- integrator of the string current loop. 09_rack_coordination.md R207; reset 0: DC 3. -/
  integ : Rat
  /-- mean current of the window before. 09_rack_coordination.md R201 (i_prev); reset none: DC 3. -/
  iPrev : Option Rat
  /-- string voltage the commands set. 09_rack_coordination.md R201 (v_str_applied); reset 0: DC 3. -/
  vStr : Rat
  /-- bus estimate. 09_rack_coordination.md R205; reset 0: DC 3. -/
  vBus : Rat
  /-- current reference. 09_rack_coordination.md R206; reset 0: DC 3. -/
  iRef : Rat
  /-- string current of the last window. 14_command_reference.md R326 I_STR; reset 0: DC 3. -/
  iStr : Rat
  /-- samples of the current window, newest first. 09_rack_coordination.md R201; reset []: DC 3. -/
  iWin : List Rat
  /-- trimmed R(path). 09_rack_coordination.md R205; reset 1/10: DC 3. -/
  rpath : Rat
  /-- operating droop centre of the last dispatch. 14_command_reference.md R327; reset none: spec. -/
  vd : Option Rat
  /-- R(d) of the checkpoint a role was taken with, until a rack commit. 09_rack_coordination.md R216; reset none: DC 3. -/
  rd : Option Nat
  /-- dispatches that wait for their apply times. 09_rack_coordination.md R206, 14_command_reference.md R327; reset []: spec. -/
  dispatch : List Dispatch
  /-- the integrator is to be adjusted so that X is unchanged. 09_rack_coordination.md R207; reset false: DC 3. -/
  rebase : Bool
  /-- sharing, held and starting shelves of the last cycle. 09_rack_coordination.md R207, R209; reset []: DC 3. -/
  roster : List (List Nat)
  /-- sign of the last I(ref): charge or discharge. 09_rack_coordination.md R213; reset none: DC 3. -/
  refCh : Option Bool
  /-- string voltages that the last commands set, newest first. 09_rack_coordination.md R201 (v_str_applied); reset []: DC 3. -/
  vSet : List Rat
  /-- the interleaved shelves in the order of their phase index. 09_rack_coordination.md R209, 05_ladder_modulation.md R113; reset []: DC 3. -/
  phases : List Nat
  /-- plant limits in force. 09_rack_coordination.md Table 9-5 plant; reset PlantLimit.reset: DC 3. -/
  plant : PlantLimit
  /-- PLANT_STALE. 09_rack_coordination.md R217; reset false: spec. -/
  plantStale : Bool
  /-- model time of the last RACK_BUS taken for its voltage. 14_command_reference.md R327; reset none: DC 3. -/
  busAt : Option Nat
  /-- last measured bus voltage. 09_rack_coordination.md R205; reset none: DC 3. -/
  busMeas : Option Rat
  /-- last reported contactor state. 09_rack_coordination.md R211, Table 9-2 CONTACTOR; reset false: DC 3. -/
  contactor : Bool
  /-- bus hold-up active. 09_rack_coordination.md R211 BUS_HU; reset false: spec. -/
  busHu : Bool
  /-- consecutive estimates below V(sag). 09_rack_coordination.md R211; reset 0: spec. -/
  sagRun : Nat
  /-- since when the estimate has been above the exit level. 09_rack_coordination.md R211; reset none: DC 3. -/
  sagClear : Option Nat
  /-- what it holds of shelves 1 to 32. 09_rack_coordination.md R208; reset List.replicate 32 ShelfRow.reset: DC 3. -/
  rows : List ShelfRow
  /-- number N of shelves of the ring. 01_shelf_in_rack.md R20 (N); reset 2: DC 3. -/
  shelves : Nat
  /-- the shelf that is being admitted. 09_rack_coordination.md R209; reset none: spec. -/
  admitting : Option Nat
  /-- succession list. 09_rack_coordination.md R216; reset []: spec. -/
  succ : List Nat
  /-- discharge Weir. 09_rack_coordination.md R212; reset 0: DC 3. -/
  weirDis : Rat
  /-- charge Weir. 09_rack_coordination.md R212; reset 0: DC 3. -/
  weirCh : Rat
  /-- code that sets the discharge Weir. 09_rack_coordination.md Table 9-5; reset 0: DC 3. -/
  codeDis : BitVec 4
  /-- code that sets the charge Weir. 09_rack_coordination.md Table 9-5; reset 0: DC 3. -/
  codeCh : BitVec 4
  /-- shelf that sets the discharge Weir. 09_rack_coordination.md Table 9-6; reset 0: spec. -/
  shelfDis : Nat
  /-- shelf that sets the charge Weir. 09_rack_coordination.md Table 9-6; reset 0: spec. -/
  shelfCh : Nat
  /-- last setting-code record, discharge. 09_rack_coordination.md R214; reset none: DC 3. -/
  codeAtDis : Option Nat
  /-- last setting-code record, charge. 09_rack_coordination.md R214; reset none: DC 3. -/
  codeAtCh : Option Nat
  /-- the reversal limit holds. 09_rack_coordination.md R213; reset false: spec. -/
  reversing : Bool
  /-- end of the lease. 09_rack_coordination.md R220; reset 0: DC 3. -/
  leaseUntil : Nat
  /-- model time of the next checkpoint. 09_rack_coordination.md R216; reset 0: DC 3. -/
  ckptAt : Nat
  /-- checkpoint held as a successor. 09_rack_coordination.md R216; reset none: spec. -/
  ckpt : Option Checkpoint
  /-- model time at which it was received. 09_rack_coordination.md R216; reset 0: DC 3. -/
  ckptRecv : Nat
  /-- the HANDOVER request that waits. 14_command_reference.md R326 HANDOVER; reset none: DC 3. -/
  handover : Option Req
  /-- period boundary of a planned handover. 09_rack_coordination.md R217; reset none: DC 3. -/
  handAt : Option Nat
  /-- number of the last vote. 10_relide_ring.md Table 10-5 VOTE; reset 0: DC 3. -/
  voteNo : BitVec 32
  /-- a sleep vote runs at this Wellhead. 09_rack_coordination.md Table 9-6 vote running; reset false: spec. -/
  voting : Bool
  /-- model time at which missing votes count as no. 03_states_clocks_resets.md R58; reset 0: DC 3. -/
  voteDue : Nat
  /-- shelves that voted yes. 03_states_clocks_resets.md R58; reset []: spec. -/
  voteYes : List Nat
  /-- the RACK_SLEEP request that waits. 14_command_reference.md R326 RACK_SLEEP; reset none: DC 3. -/
  voteReq : Option Req
  /-- vote this shelf voted yes in. 03_states_clocks_resets.md R59; reset none: spec. -/
  votedYes : Option (BitVec 32)
  /-- committed ring time of the sleep. 03_states_clocks_resets.md R58 T(c); reset none: spec. -/
  sleepAt : Option Nat
  /-- values of the rack stage at the Wellhead. 09_rack_coordination.md R224; reset []: spec. -/
  stage : List ParamRec
  /-- model time of the stage. 09_rack_coordination.md R224; reset 0: DC 3. -/
  stageAt : Nat
  /-- a rack stage waits for its acknowledgements. 09_rack_coordination.md R224; reset false: spec. -/
  staging : Bool
  /-- a rack stage is acknowledged and not committed. 09_rack_coordination.md R224; reset false: spec. -/
  staged : Bool
  /-- the RACK_STAGE request that waits. 14_command_reference.md R326 RACK_STAGE; reset none: DC 3. -/
  stageReq : Option Req
  /-- the RACK_COMMIT request that waits. 14_command_reference.md R326 RACK_COMMIT; reset none: DC 3. -/
  commitReq : Option Req
  /-- generation and T(c) of the rack commit that page-0 STATUS has still to confirm. 09_rack_coordination.md R224; reset none: DC 3. -/
  confirm : Option (BitVec 32 × Nat)
  /-- ring time of the first stage frame. 01_shelf_in_rack.md R24; reset 0: DC 3. -/
  stageRing : Nat
  /-- digests of the staged sets that gave way to another stage, newest first, cut to the last 8. 01_shelf_in_rack.md R24; reset []: DC 3. -/
  gaveWay : List (BitVec 64)
  /-- model time of the last takeover. 09_rack_coordination.md Table 9-10; reset 0: DC 3. -/
  takeoverAt : Nat
  /-- shelf that holds the activation grant. 16_security_lifecycle_update.md R372; reset none: spec. -/
  grantTo : Option Nat
  /-- model time of the grant. 16_security_lifecycle_update.md R372; reset 0: DC 3. -/
  grantAt : Nat
  /-- last order number observed. 18_counters_trace_debug.md R395; reset 0: DC 3. -/
  snapNo : BitVec 32
  deriving DecidableEq, Repr

/-- Rack at reset. -/
def Rack.reset : Rack where
  wellhead := false
  epoch := 0
  obeyed := 0
  everObeyed := false
  highEpoch := 0
  leader := 0
  lost := false
  lostAt := 0
  lossOpen := false
  runAt := 0
  heardCmd := false
  xLast := 0
  integ := 0
  iPrev := none
  vStr := 0
  vBus := 0
  iRef := 0
  iStr := 0
  iWin := []
  rpath := 1/10
  vd := none
  rd := none
  dispatch := []
  rebase := false
  roster := []
  refCh := none
  vSet := []
  phases := []
  plant := PlantLimit.reset
  plantStale := false
  busAt := none
  busMeas := none
  contactor := false
  busHu := false
  sagRun := 0
  sagClear := none
  rows := List.replicate 32 ShelfRow.reset
  shelves := 2
  admitting := none
  succ := []
  weirDis := 0
  weirCh := 0
  codeDis := 0
  codeCh := 0
  shelfDis := 0
  shelfCh := 0
  codeAtDis := none
  codeAtCh := none
  reversing := false
  leaseUntil := 0
  ckptAt := 0
  ckpt := none
  ckptRecv := 0
  handover := none
  handAt := none
  voteNo := 0
  voting := false
  voteDue := 0
  voteYes := []
  voteReq := none
  votedYes := none
  sleepAt := none
  stage := []
  stageAt := 0
  staging := false
  staged := false
  stageReq := none
  commitReq := none
  confirm := none
  stageRing := 0
  gaveWay := []
  takeoverAt := 0
  grantTo := none
  grantAt := 0
  snapNo := 0

/-- One ring port (10_relide_ring.md). -/
structure PortS where
  /-- DOWN, TRAINING or UP. 10_relide_ring.md R246, Table 10-9; reset .down: spec. -/
  state : PortState
  /-- consecutive valid exchanges. 10_relide_ring.md Table 10-8; reset 0: spec. -/
  exchanges : Nat
  /-- consecutive expected SYNC missing or rejected. 10_relide_ring.md Table 10-8; reset 0: spec. -/
  missed : Nat
  /-- filtered link delay. 10_relide_ring.md R244 (d); reset 0: DC 3. -/
  delay : Rat
  /-- model time of the last link delay. 10_relide_ring.md R244; reset none: DC 3. -/
  delayAt : Option Nat
  /-- DIST last received. 10_relide_ring.md R244 (DIST received); reset 0xFF: spec. -/
  dist : BitVec 8
  /-- own ring time of the last SYNC sent. 10_relide_ring.md R244 t(1); reset none: DC 3. -/
  lastTx : Option Nat
  /-- ring time of the last SYNC accepted. 10_relide_ring.md R244 (receipt); reset none: DC 3. -/
  lastRx : Option Nat
  /-- T_TX of the last SYNC accepted. 10_relide_ring.md R235; reset none: DC 3. -/
  lastTTx : Option Nat
  /-- the command window is open. 10_relide_ring.md R236; reset false: DC 3. -/
  window : Bool
  /-- a COMMAND has been forwarded or sent in this window. 10_relide_ring.md R240; reset false: DC 3. -/
  sentCmd : Bool
  /-- the frame the port is sending. 10_relide_ring.md R229; reset none: spec. -/
  busy : Option Frame
  /-- code groups of that frame that follow after the present burst. 10_relide_ring.md R238; reset 0: DC 3. -/
  left : Nat
  /-- model time at which the present burst ends. 10_relide_ring.md R229, R238; reset 0: DC 3. -/
  txUntil : Nat
  /-- model time until which the other end drives the line, or has driven it. 10_relide_ring.md R229, R240; reset 0: DC 3. -/
  heardUntil : Nat
  /-- receptions of MSG and IMAGE, newest first: the code groups that follow after the burst under way, and the model time at which that burst ends or ended. 10_relide_ring.md R238; reset []: DC 3. -/
  hears : List (Nat × Nat)
  /-- end of the gap that the port leaves after 32 code groups of a MSG or IMAGE. 10_relide_ring.md R238 (gap of 2 code groups); reset 0: DC 3. -/
  gapUntil : Nat
  /-- model time of the last training burst, or SYNC on the burst schedule, that the port sent. 10_relide_ring.md R246 Table 10-8; reset none: DC 3. -/
  burstAt : Option Nat
  /-- model time at which the port last heard one. 10_relide_ring.md R246 Table 10-8; reset none: DC 3. -/
  heardAt : Option Nat
  /-- frames that wait, in priority order. 10_relide_ring.md R239; reset []: spec. -/
  waiting : List Frame
  /-- suspended frames of this sender, newest first, with the time of suspension and the code groups that are left. 10_relide_ring.md R238; reset []: spec. -/
  suspended : List (Frame × Nat × Nat)
  /-- frames the port has sent, newest first, cut to the last 16. 10_relide_ring.md R229 (what the land carried); reset []: MODEL 5. -/
  sent : List Frame
  /-- next chunk that the source sends on this port. 10_relide_ring.md R250; reset 0: DC 3. -/
  nextImage : Nat
  /-- chunks to send on this port: forwarded or asked for again. 10_relide_ring.md R250; reset []: spec. -/
  imageQ : List Nat
  /-- model time at which the last IMAGE frame left. 10_relide_ring.md R250 (1.4 ms); reset none: DC 3. -/
  imageAt : Option Nat
  /-- held DOWN until then. 12_temperature_and_faults.md Table 12-5 RING; reset 0: DC 3. -/
  heldDown : Nat
  deriving DecidableEq, Repr

/-- PortS at reset. -/
def PortS.reset : PortS where
  state := .down
  exchanges := 0
  missed := 0
  delay := 0
  delayAt := none
  dist := 0xFF
  lastTx := none
  lastRx := none
  lastTTx := none
  window := false
  sentCmd := false
  busy := none
  left := 0
  txUntil := 0
  heardUntil := 0
  hears := []
  gapUntil := 0
  burstAt := none
  heardAt := none
  waiting := []
  suspended := []
  sent := []
  nextImage := 0
  imageQ := []
  imageAt := none
  heldDown := 0

/-- The Relide ring link (10_relide_ring.md). -/
structure Ring where
  /-- port LKA. 10_relide_ring.md R20, Table 10-9; reset PortS.reset: spec. -/
  lka : PortS
  /-- port LKB. 10_relide_ring.md R20, Table 10-9; reset PortS.reset: spec. -/
  lkb : PortS
  /-- port followed for ring time. 10_relide_ring.md Table 10-9 TIME_SRC; reset .lka: spec. -/
  source : Port
  /-- for each TYPE the lowest ring time that no own frame has carried. 10_relide_ring.md R234; reset List.replicate 8 0: DC 3. -/
  nextT : List Nat
  /-- TYPE, SRC, T and arrival of frames accepted in the last 20 ms. 10_relide_ring.md R235, R240; reset []: spec. -/
  seen : List (Nat × Nat × Nat × Nat)
  /-- frames rejected. 14_command_reference.md R326 REJECTED; reset 0: DC 3. -/
  rejected : BitVec 32
  /-- next SEQ for each destination. 10_relide_ring.md R249; reset []: spec. -/
  seqs : List (Nat × BitVec 8)
  /-- last SEQ delivered from each sender. 10_relide_ring.md R249; reset []: spec. -/
  lastSeq : List (Nat × BitVec 8)
  /-- destinations to which a first message has been sent since reset. 10_relide_ring.md Table 10-10 START; reset []: spec. -/
  started : List Nat
  /-- unacknowledged MSGs. 10_relide_ring.md R249; reset []: spec. -/
  flight : List Msg
  /-- MSGs that wait for their destination. 10_relide_ring.md R249; reset []: spec. -/
  msgQueue : List Msg
  /-- destination and channel of undelivered MSGs. 10_relide_ring.md R249; reset []: spec. -/
  undelivered : List (Nat × Nat)
  /-- this SZ716 is the image source. 10_relide_ring.md R250; reset false: spec. -/
  relaySrc : Bool
  /-- an image relay runs. 10_relide_ring.md R250; reset false: spec. -/
  relaying : Bool
  /-- the IMAGE_RELAY request that waits. 14_command_reference.md R331 IMAGE_RELAY; reset none: DC 3. -/
  relayReq : Option Req
  /-- DIGEST_L of the image relayed. 10_relide_ring.md R250 IMAGE_ID; reset 0: DC 3. -/
  relayId : BitVec 32
  /-- number of chunks. 10_relide_ring.md R250 COUNT; reset 0: DC 3. -/
  relayCount : Nat
  /-- model time at which the relay began. 10_relide_ring.md R250, 14_command_reference.md Table 14-12; reset 0: DC 3. -/
  relayAt : Nat
  /-- RELAY requests that wait, with DST and inner tag. 14_command_reference.md R326 RELAY; reset []: DC 3. -/
  relays : List (Req × Nat × BitVec 8)
  /-- hops reported down, as shelf numbers of their LKB end. 10_relide_ring.md R247; reset []: spec. -/
  linkDown : List Nat
  deriving DecidableEq, Repr

/-- Ring at reset. -/
def Ring.reset : Ring where
  lka := PortS.reset
  lkb := PortS.reset
  source := .lka
  nextT := List.replicate 8 0
  seen := []
  rejected := 0
  seqs := []
  lastSeq := []
  started := []
  flight := []
  msgQueue := []
  undelivered := []
  relaySrc := false
  relaying := false
  relayReq := none
  relayId := 0
  relayCount := 0
  relayAt := 0
  relays := []
  linkDown := []

/-- One regulator channel (R252 to R260). -/
structure Rail where
  /-- state. 11_aux_power.md Table 11-8 STATE; reset .off: spec. -/
  st : RailState
  /-- output in window. 11_aux_power.md Table 11-8 PG; reset false: spec. -/
  pg : Bool
  /-- aligned to ring time. 11_aux_power.md Table 11-8 SYNC; reset false: spec. -/
  sync : Bool
  /-- frequency or phase moving. 11_aux_power.md Table 11-8 SLEW; reset false: spec. -/
  slew : Bool
  /-- dropout. 11_aux_power.md Table 11-8 DROPOUT; reset false: spec. -/
  dropout : Bool
  /-- capped at 1 MHz. 11_aux_power.md Table 11-8 FREQ_CAP; reset false: spec. -/
  freqCap : Bool
  /-- cause. 11_aux_power.md Table 11-8 CAUSE; reset 0: spec. -/
  cause : BitVec 4
  /-- model times of its latches in the last 10 s. 11_aux_power.md R258; reset []: spec. -/
  latches : List Nat
  /-- model times of its automatic clears in the last 10 s. 11_aux_power.md Table 11-8 RETRY; reset []: spec. -/
  clears : List Nat
  /-- model time of the last latch. 11_aux_power.md R258; reset 0: DC 3. -/
  latchedAt : Nat
  /-- the latch stands until power-on reset. 11_aux_power.md R258; reset false: spec. -/
  stuck : Bool
  /-- output as last sensed. 14_command_reference.md R328 VOUT; reset 0: DC 3. -/
  vout : Nat
  /-- current as last sensed. 11_aux_power.md Table 11-6 IOUT; reset 0: DC 3. -/
  iout : Int
  /-- set value in use (0.75 V, 1.8 V, 5 V, 12 V once started). 11_aux_power.md Table 11-1; reset 0: DC 3. -/
  vset : Nat
  /-- switching frequency in use. 11_aux_power.md R260; reset 0: DC 3. -/
  fsw : Nat
  /-- reference at which the ramp under way began. 11_aux_power.md R257, R277; reset 0: DC 3. -/
  vfrom : Nat
  /-- model time at which the check, or the ramp of the reference, began. 11_aux_power.md R256, R257, R277; reset 0: DC 3. -/
  rampFrom : Nat
  /-- model time at which the ramp of the reference ends. 11_aux_power.md R257, R277; reset 0: DC 3. -/
  rampTo : Nat
  /-- the wake start is in progress. 11_aux_power.md R261; reset false: DC 3. -/
  wakeStart : Bool
  /-- channel 1 has passed its check in the wake start and waits for channel 0. 11_aux_power.md R261; reset false: DC 3. -/
  checked : Bool
  /-- the start waits: for the step delay of the default start, or for the input above its UVLO. 11_aux_power.md R261, Table 11-3; reset none: DC 3. -/
  startAt : Option Nat
  /-- channel 2 holds PLG2 low: VA5 has not reached 90 % of its set value. 11_aux_power.md R252; reset false: spec. -/
  nonSync : Bool
  /-- high-side turn-on after each multiple of the period in ring time, while aligned. 11_aux_power.md R259; reset 0: DC 3. -/
  edge : Nat
  deriving DecidableEq, Repr

/-- Rail at reset. -/
def Rail.reset : Rail where
  st := .off
  pg := false
  sync := false
  slew := false
  dropout := false
  freqCap := false
  cause := 0
  latches := []
  clears := []
  latchedAt := 0
  stuck := false
  vout := 0
  iout := 0
  vset := 0
  fsw := 0
  vfrom := 0
  rampFrom := 0
  rampTo := 0
  wakeStart := false
  checked := false
  startAt := none
  nonSync := false
  edge := 0

/-- One eFuse channel (R268 to R273). -/
structure Efuse where
  /-- state. 11_aux_power.md Table 11-9 STATE; reset .off: spec. -/
  st : EfuseState
  /-- power good. 11_aux_power.md Table 11-9 PG; reset false: spec. -/
  pg : Bool
  /-- cause. 11_aux_power.md Table 11-9 CAUSE; reset 0: spec. -/
  cause : BitVec 4
  /-- turn-on permitted. 11_aux_power.md Table 11-9 PERMIT, R273; reset false: spec. -/
  permit : Bool
  /-- model time of the pre-check or of the turn-on. 11_aux_power.md R269, R270; reset 0: DC 3. -/
  since : Nat
  /-- model time at which the gate window of the turn-on under way ends. 11_aux_power.md R270, R277; reset 0: DC 3. -/
  gateDue : Nat
  /-- model time at which limiting began. 11_aux_power.md R272; reset 0: DC 3. -/
  limitAt : Nat
  /-- current as last sensed. 14_command_reference.md R328 IFUSE; reset 0: DC 3. -/
  current : Int
  /-- V(ESx) as last sensed. 11_aux_power.md Table 11-7 VIN; reset 0: DC 3. -/
  vin : Nat
  /-- V(EOx) as last sensed. 11_aux_power.md Table 11-7 VOUT; reset 0: DC 3. -/
  vout : Nat
  /-- EFUSE_CLEAR and STEP_CONTROL requests that wait. 14_command_reference.md R328; reset []: DC 3. -/
  req : List Req
  deriving DecidableEq, Repr

/-- Efuse at reset. -/
def Efuse.reset : Efuse where
  st := .off
  pg := false
  cause := 0
  permit := false
  since := 0
  gateDue := 0
  limitAt := 0
  current := 0
  vin := 0
  vout := 0
  req := []

/-- One last-fault record (R274, Table 11-7). -/
structure LastFault where
  /-- a record stands. 14_command_reference.md R328 VALID; reset false: spec. -/
  valid : Bool
  /-- write count. 11_aux_power.md Table 11-7 SEQ; reset 0: spec. -/
  seq : BitVec 32
  /-- operating seconds. 11_aux_power.md Table 11-7 OPSEC; reset 0: spec. -/
  opsec : BitVec 32
  /-- ring time, low 32 bits. 11_aux_power.md Table 11-7 RTIME; reset 0: spec. -/
  rtime : BitVec 32
  /-- cause. 11_aux_power.md Table 11-7 CAUSE; reset 0: spec. -/
  cause : BitVec 8
  /-- input. 11_aux_power.md Table 11-7 VIN; reset 0: spec. -/
  vin : BitVec 16
  /-- output. 11_aux_power.md Table 11-7 VOUT; reset 0: spec. -/
  vout : BitVec 16
  /-- peak current. 11_aux_power.md Table 11-7 IPEAK; reset 0: spec. -/
  ipeak : BitVec 16
  /-- duty or gate voltage. 11_aux_power.md Table 11-7 DUTY; reset 0: spec. -/
  duty : BitVec 16
  /-- frequency. 11_aux_power.md Table 11-7 FSW; reset 0: spec. -/
  fsw : BitVec 16
  /-- power-die temperature. 11_aux_power.md Table 11-7 TEMP; reset 0: spec. -/
  temp : BitVec 8
  /-- flags. 11_aux_power.md Table 11-7 RFLAGS; reset 0: spec. -/
  rflags : BitVec 8
  /-- faults since manufacture. 11_aux_power.md Table 11-7 COUNT; reset 0: spec. -/
  count : BitVec 16
  deriving DecidableEq, Repr

/-- LastFault at reset. -/
def LastFault.reset : LastFault where
  valid := false
  seq := 0
  opsec := 0
  rtime := 0
  cause := 0
  vin := 0
  vout := 0
  ipeak := 0
  duty := 0
  fsw := 0
  temp := 0
  rflags := 0
  count := 0

/-- Auxiliary rails, sequencing and electronic fuses (11_aux_power.md). -/
structure Aux where
  /-- channels 0 to 3. 11_aux_power.md R252; reset List.replicate 4 Rail.reset: spec. -/
  rails : List Rail
  /-- channels 1 to 6. 11_aux_power.md R268; reset List.replicate 6 Efuse.reset: spec. -/
  fuses : List Efuse
  /-- two copies each of the last-fault records of regulators 0 to 3 and eFuses 1 to 6. 11_aux_power.md R274; reset List.replicate 20 LastFault.reset: spec. -/
  faults : List LastFault
  /-- last-fault records that wait to be written. 11_aux_power.md R274, 12_temperature_and_faults.md R286; reset []: spec. -/
  waiting : List (Nat × LastFault)
  /-- the sequencer: idle, starting, shutting down, ended. 11_aux_power.md R262, R264; reset .idle: spec. -/
  seqRun : SeqRun
  /-- position in the sequence list. 11_aux_power.md R262; reset 0: spec. -/
  seqPos : Nat
  /-- model time of the next step. 11_aux_power.md R262; reset 0: DC 3. -/
  seqDue : Nat
  /-- the start sequence is paused by FLT_N. 11_aux_power.md Table 11-10; reset false: spec. -/
  seqPaused : Bool
  /-- the ordered shutdown waits for the start of the step before its position. 11_aux_power.md Table 11-10; reset false: DC 3. -/
  seqWait : Bool
  /-- model time at which the step under way was turned off. 11_aux_power.md R264; reset 0: DC 3. -/
  fallAt : Nat
  /-- SEQ_IN reads high. 11_aux_power.md R265; reset true: spec. -/
  seqIn : Bool
  /-- SEQ_OUT is released (held low from power-on reset). 11_aux_power.md R265; reset false: spec. -/
  seqOut : Bool
  /-- end of the SEQ_OUT lead time. 11_aux_power.md R264; reset none: spec. -/
  leadDue : Option Nat
  /-- end of the own FLT_N pulse. 11_aux_power.md R266; reset none: spec. -/
  fltOwn : Option Nat
  /-- FLT_N is held low by another device. 11_aux_power.md R266; reset false: spec. -/
  fltExt : Bool
  /-- step codes that have been shed and are to restart. 11_aux_power.md R266, 02_package_and_supplies.md R44; reset []: spec. -/
  shed : List Nat
  /-- step codes that FLT_N has shed and that wait for its restart delay. 11_aux_power.md R266; reset []: spec. -/
  fltShed : List Nat
  /-- model time at which shed steps restart. 11_aux_power.md R266; reset none: spec. -/
  restartAt : Option Nat
  /-- RAIL_CLEAR and STEP_CONTROL requests that wait for channel 3. 14_command_reference.md R328; reset []: DC 3. -/
  railReq : List Req
  deriving DecidableEq, Repr

/-- Aux at reset. -/
def Aux.reset : Aux where
  rails := List.replicate 4 Rail.reset
  fuses := List.replicate 6 Efuse.reset
  faults := List.replicate 20 LastFault.reset
  waiting := []
  seqRun := .idle
  seqPos := 0
  seqDue := 0
  seqPaused := false
  seqWait := false
  fallAt := 0
  seqIn := true
  seqOut := false
  leadDue := none
  fltOwn := none
  fltExt := false
  shed := []
  fltShed := []
  restartAt := none
  railReq := []

/-- How one die stands to one threshold (R281). -/
structure Thresh where
  /-- crossed upward and not yet downward. 12_temperature_and_faults.md R281; reset false: spec. -/
  above : Bool
  /-- consecutive readings that would cross it. 12_temperature_and_faults.md R281; reset 0: spec. -/
  run : Nat
  deriving DecidableEq, Repr

/-- Thresh at reset. -/
def Thresh.reset : Thresh where
  above := false
  run := 0

/-- One FSTAT source at the fault collector (R287 to R289). -/
structure Source where
  /-- model times of the counted events of the window. 12_temperature_and_faults.md R289; reset []: spec. -/
  events : List Nat
  /-- the source is severe. 12_temperature_and_faults.md R289; reset false: spec. -/
  severe : Bool
  /-- model time at which it became severe. 12_temperature_and_faults.md R289; reset 0: DC 3. -/
  severeAt : Nat
  /-- the source is still active. 12_temperature_and_faults.md R287; reset false: DC 3. -/
  active : Bool
  deriving DecidableEq, Repr

/-- Source at reset. -/
def Source.reset : Source where
  events := []
  severe := false
  severeAt := 0
  active := false

/-- One armed fault injection (R291, R292). -/
structure Injection where
  /-- identity. 14_command_reference.md R316 INJECT_ID; reset 0: DC 3. -/
  id : BitVec 8
  /-- target. 18_counters_trace_debug.md Table 18-6; reset 0: DC 3. -/
  target : BitVec 16
  /-- kind. 14_command_reference.md R316 KIND; reset 0: DC 3. -/
  kind : BitVec 8
  /-- value. 14_command_reference.md R316 VALUE; reset 0: DC 3. -/
  value : BitVec 32
  /-- end; none acts once. 14_command_reference.md R316 DURATION; reset none: DC 3. -/
  ends : Option Nat
  deriving DecidableEq, Repr

/-- Injection at reset. -/
def Injection.reset : Injection where
  id := 0
  target := 0
  kind := 0
  value := 0
  ends := none

/-- The factory calibration of one die sensor: two points and the range it declares (R278, R279). -/
structure SensorCal where
  /-- oscillator frequency at the lower point. 12_temperature_and_faults.md R278; reset 60000: DC 197. -/
  lowKhz : Nat
  /-- temperature of the lower point. 12_temperature_and_faults.md R278; reset -4000: DC 197. -/
  lowT : Int
  /-- oscillator frequency at the upper point. 12_temperature_and_faults.md R278; reset 250000: DC 197. -/
  highKhz : Nat
  /-- temperature of the upper point. 12_temperature_and_faults.md R278; reset 15000: DC 197. -/
  highT : Int
  /-- lowest frequency that the calibration declares. 12_temperature_and_faults.md R279; reset 50000: DC 197. -/
  minKhz : Nat
  /-- highest frequency that the calibration declares. 12_temperature_and_faults.md R279; reset 260000: DC 197. -/
  maxKhz : Nat
  deriving DecidableEq, Repr

/-- SensorCal at reset. -/
def SensorCal.reset : SensorCal where
  lowKhz := 60000
  lowT := -4000
  highKhz := 250000
  highT := 15000
  minKhz := 50000
  maxKhz := 260000

/-- Die temperatures and the fault collector (12_temperature_and_faults.md). -/
structure Faults where
  /-- control-die readings [0.01 degC]. 12_temperature_and_faults.md R278; reset List.replicate 12 2500: DC 3. -/
  ctrl : List Int
  /-- power-die readings [0.01 degC]. 12_temperature_and_faults.md R278; reset List.replicate 6 2500: DC 3. -/
  power : List Int
  /-- excluded control-die sensors. 12_temperature_and_faults.md R279; reset List.replicate 12 false: spec. -/
  ctrlOut : List Bool
  /-- excluded power-die sensors. 12_temperature_and_faults.md R279; reset List.replicate 6 false: spec. -/
  powerOut : List Bool
  /-- two-point calibration of the control-die sensors, in fuses. 12_temperature_and_faults.md R278, R279; reset List.replicate 12 SensorCal.reset: DC 197. -/
  ctrlCal : List SensorCal
  /-- two-point calibration of the power-die sensors, in fuses. 12_temperature_and_faults.md R278, R279; reset List.replicate 6 SensorCal.reset: DC 197. -/
  powerCal : List SensorCal
  /-- consecutive readings far from the median. 12_temperature_and_faults.md R279; reset List.replicate 12 0: spec. -/
  ctrlRun : List Nat
  /-- consecutive readings far from the median. 12_temperature_and_faults.md R279; reset List.replicate 6 0: spec. -/
  powerRun : List Nat
  /-- control die, warning. 12_temperature_and_faults.md R281; reset Thresh.reset: spec. -/
  ctrlWarn : Thresh
  /-- control die, throttle. 12_temperature_and_faults.md R281; reset Thresh.reset: spec. -/
  ctrlThr : Thresh
  /-- control die, shutdown. 12_temperature_and_faults.md R281; reset Thresh.reset: spec. -/
  ctrlShut : Thresh
  /-- power die, warning. 12_temperature_and_faults.md R281; reset Thresh.reset: spec. -/
  powWarn : Thresh
  /-- power die, throttle. 12_temperature_and_faults.md R281; reset Thresh.reset: spec. -/
  powThr : Thresh
  /-- power die, shutdown. 12_temperature_and_faults.md R281; reset Thresh.reset: spec. -/
  powShut : Thresh
  /-- safe mode. 12_temperature_and_faults.md R282, 13_host_port_and_mailboxes.md Table 13-4 SAFE; reset false: spec. -/
  safe : Bool
  /-- model time at which safe mode began. 12_temperature_and_faults.md R282; reset 0: DC 3. -/
  safeAt : Nat
  /-- FSTAT bits 31 and 29 to 3 as latched (30 and 2 are formed). 12_temperature_and_faults.md Table 12-3; reset 0: spec. -/
  fstat : BitVec 32
  /-- the FSTAT sources. 12_temperature_and_faults.md R289; reset List.replicate 32 Source.reset: spec. -/
  sources : List Source
  /-- FSTAT bit of the fatal event. 14_command_reference.md R316 FATAL_SRC; reset none: spec. -/
  fatalSrc : Option Nat
  /-- armed injections. 12_temperature_and_faults.md R291, R292; reset []: spec. -/
  injections : List Injection
  /-- the event under way comes from an injection: its record carries the mark. 12_temperature_and_faults.md R292; reset false: DC 3. -/
  marking : Bool
  /-- next INJECT_ID. 14_command_reference.md R316 INJECT_ID; reset 0: DC 3. -/
  nextInject : BitVec 8
  /-- rack current limit taken as half the Hall range. 12_temperature_and_faults.md Table 12-5 CURRENT; reset false: spec. -/
  halfHall : Bool
  /-- bit k: eFuse channel k is held off until an Operator clear. 12_temperature_and_faults.md Table 12-5 EFUSE; reset 0: spec. -/
  fuseHold : BitVec 7
  deriving DecidableEq, Repr

/-- Faults at reset. -/
def Faults.reset : Faults where
  ctrl := List.replicate 12 2500
  power := List.replicate 6 2500
  ctrlOut := List.replicate 12 false
  powerOut := List.replicate 6 false
  ctrlCal := List.replicate 12 SensorCal.reset
  powerCal := List.replicate 6 SensorCal.reset
  ctrlRun := List.replicate 12 0
  powerRun := List.replicate 6 0
  ctrlWarn := Thresh.reset
  ctrlThr := Thresh.reset
  ctrlShut := Thresh.reset
  powWarn := Thresh.reset
  powThr := Thresh.reset
  powShut := Thresh.reset
  safe := false
  safeAt := 0
  fstat := 0
  sources := List.replicate 32 Source.reset
  fatalSrc := none
  injections := []
  marking := false
  nextInject := 0
  halfHall := false
  fuseHold := 0

/-- A consistent cut (R394, Table 18-3). -/
structure Cut where
  /-- order number. 18_counters_trace_debug.md Table 18-3 ORDER; reset 0: spec. -/
  order : BitVec 32
  /-- epoch of the SNAP frame. 18_counters_trace_debug.md Table 18-3 EPOCH; reset 0: spec. -/
  epoch : BitVec 32
  /-- ordered ring time. 18_counters_trace_debug.md Table 18-3 T_LATCH; reset 0: spec. -/
  tLatch : Nat
  /-- ring time of the latch. 18_counters_trace_debug.md Table 18-3 T_ACTUAL; reset 0: spec. -/
  tActual : Nat
  /-- LATE. 18_counters_trace_debug.md Table 18-3 LATE; reset false: spec. -/
  late : Bool
  /-- HOLDOVER. 18_counters_trace_debug.md Table 18-3 HOLDOVER; reset false: spec. -/
  holdover : Bool
  /-- GAP flags. 18_counters_trace_debug.md Table 18-3 GAP; reset []: spec. -/
  gap : List Bool
  /-- counters. 18_counters_trace_debug.md Table 18-3 COUNTERS; reset []: spec. -/
  counters : List Nat
  /-- histograms. 18_counters_trace_debug.md Table 18-3 HIST; reset []: spec. -/
  hist : List (List Nat)
  deriving DecidableEq, Repr

/-- Cut at reset. -/
def Cut.reset : Cut where
  order := 0
  epoch := 0
  tLatch := 0
  tActual := 0
  late := false
  holdover := false
  gap := []
  counters := []
  hist := []

/-- A command that has answered ACCEPTED or POSTPONED (R308). -/
structure Running where
  /-- mailbox, TAG and level. 13_host_port_and_mailboxes.md R308; reset Req.reset: DC 3. -/
  req : Req
  /-- its OPCODE. 13_host_port_and_mailboxes.md R308; reset 0: DC 3. -/
  opcode : BitVec 16
  /-- request payload it still needs. 13_host_port_and_mailboxes.md R308; reset []: DC 3. -/
  args : List Byte
  /-- its final status once done. 13_host_port_and_mailboxes.md Table 13-10; reset 0: DC 3. -/
  status : BitVec 8
  /-- its final response fields once done. 13_host_port_and_mailboxes.md R308; reset []: DC 3. -/
  reply : List Byte
  /-- its work is done and FINAL_RESPONSE may push it. 13_host_port_and_mailboxes.md R308; reset false: DC 3. -/
  done : Bool
  /-- model time at which it was accepted. 14_command_reference.md R313, Table 14-8; reset 0: DC 3. -/
  began : Nat
  deriving DecidableEq, Repr

/-- Running at reset. -/
def Running.reset : Running where
  req := Req.reset
  opcode := 0
  args := []
  status := 0
  reply := []
  done := false
  began := 0

/-- One mailbox (R302 to R309). -/
structure MailS where
  /-- request queue, oldest first. 13_host_port_and_mailboxes.md R302; reset []: spec. -/
  reqQ : List (List Byte)
  /-- response queue, oldest first. 13_host_port_and_mailboxes.md R302; reset []: spec. -/
  rspQ : List Entry
  /-- completed responses that wait for space. 13_host_port_and_mailboxes.md R303; reset []: spec. -/
  held : List Entry
  /-- a refusal whose 200 us are running: its request, opcode and the time of the pop. 16_security_lifecycle_update.md R361, 14_command_reference.md R313; reset none: spec. -/
  refusal : Option (Req × BitVec 16 × Nat)
  /-- the cause of that refusal, which the secure partition alone keeps. 16_security_lifecycle_update.md R362; reset none: spec. -/
  cause : Option RefusalCause
  /-- session level. 13_host_port_and_mailboxes.md Table 13-4 LEVEL, R305; reset .monitor: spec. -/
  level : Access
  /-- RESET_SEEN. 13_host_port_and_mailboxes.md Table 13-4 RESET_SEEN; reset true: spec. -/
  resetSeen : Bool
  /-- READY_CHG. 13_host_port_and_mailboxes.md Table 13-4 READY_CHG; reset false: spec. -/
  readyChg : Bool
  /-- REQ_OVF. 13_host_port_and_mailboxes.md Table 13-4 REQ_OVF; reset false: spec. -/
  reqOvf : Bool
  /-- WIN_ERR. 13_host_port_and_mailboxes.md Table 13-4 WIN_ERR; reset false: spec. -/
  winErr : Bool
  /-- BUSY. 13_host_port_and_mailboxes.md Table 13-4 BUSY; reset false: spec. -/
  busy : Bool
  /-- staged set. 14_command_reference.md R320; reset []: spec. -/
  staged : List ParamRec
  /-- recorder cursor; none = oldest valid record. 14_command_reference.md R329, 15_storage_and_recorder.md R348; reset none: spec. -/
  cursor : Option (BitVec 32)
  /-- account latch. 14_command_reference.md R324; reset none: spec. -/
  latch : Option AccLatch
  /-- open nonce and its time. 14_command_reference.md R330; reset none: spec. -/
  nonce : Option (List Byte × Nat)
  /-- NONCE of the session's latest AUTH_CHALLENGE. 16_security_lifecycle_update.md R360; reset []: DC 3. -/
  lastNonce : List Byte
  /-- Operator credential in force at the latest AUTH_CHALLENGE. 16_security_lifecycle_update.md R360; reset none: DC 3. -/
  nonceOp : Option (List Byte)
  /-- Service credential in force at the latest AUTH_CHALLENGE. 16_security_lifecycle_update.md R360; reset none: DC 3. -/
  nonceSv : Option (List Byte)
  /-- model times of failed AUTH_RESPONSE of the last 60 s. 16_security_lifecycle_update.md R359; reset []: spec. -/
  fails : List Nat
  /-- AUTH_CHALLENGE refused until then. 16_security_lifecycle_update.md R359; reset none: spec. -/
  lockUntil : Option Nat
  /-- snapshot of this mailbox. 18_counters_trace_debug.md R394; reset none: spec. -/
  snap : Option Cut
  /-- TAGs of running commands whose responses are discarded. 13_host_port_and_mailboxes.md R300; reset []: spec. -/
  dropRun : List (BitVec 8)
  deriving DecidableEq, Repr

/-- MailS at reset. -/
def MailS.reset : MailS where
  reqQ := []
  rspQ := []
  held := []
  refusal := none
  cause := none
  level := .monitor
  resetSeen := true
  readyChg := false
  reqOvf := false
  winErr := false
  busy := false
  staged := []
  cursor := none
  latch := none
  nonce := none
  lastNonce := []
  nonceOp := none
  nonceSv := none
  fails := []
  lockUntil := none
  snap := none
  dropRun := []

/-- Host port, mailboxes and local links (13, 17). -/
structure HostS where
  /-- HIRQ_EN bits 3 to 0. 13_host_port_and_mailboxes.md Table 13-5 HIRQ_EN; reset 0xE: spec. -/
  irqEn : BitVec 4
  /-- host SPI, ring, service UART, two-wire target. 13_host_port_and_mailboxes.md R305 Table 13-7; reset List.replicate 4 MailS.reset: spec. -/
  mail : List MailS
  /-- mailbox that is served next. 13_host_port_and_mailboxes.md R308; reset 0: DC 3. -/
  turn : Nat
  /-- commands that have not had their final response. 13_host_port_and_mailboxes.md R308; reset []: spec. -/
  running : List Running
  /-- data bytes HSDO carried in the last read transaction. 13_host_port_and_mailboxes.md R294; reset []: MODEL 5. -/
  hsdo : List Byte
  /-- sender of each request of the ring mailbox, by its TAG. 14_command_reference.md R327, 13_host_port_and_mailboxes.md R305; reset []: DC 3. -/
  ringFrom : List (Nat × Nat)
  /-- ring time of the frame by which the ring mailbox request of a tag came. 01_shelf_in_rack.md R24; reset []: DC 3. -/
  ringTimes : List (Nat × Nat)
  /-- window pointer of two-wire bus B. 17_local_buses.md R385; reset 0: DC 3. -/
  twbPtr : BitVec 8
  /-- request buffer of two-wire bus B. 17_local_buses.md R385; reset List.replicate 256 0: DC 3. -/
  twbBuf : List Byte
  /-- data bytes the last bus B read took. 17_local_buses.md R385; reset []: MODEL 5. -/
  twbOut : List Byte
  /-- bytes are not counted before the next idle line. 17_local_buses.md R389; reset false: DC 3. -/
  uartSkip : Bool
  /-- response entries sent on the service UART, newest first, cut to the last 8. 17_local_buses.md R389; reset []: MODEL 5. -/
  uartOut : List Entry
  /-- bytes of a partial entry. 17_local_buses.md R389; reset []: spec. -/
  uartBuf : List Byte
  /-- ACTION in force for blocks 1 to 4. 14_command_reference.md R316 BLOCK_GATE; reset [0, 0, 0, 0]: spec. -/
  gates : List (BitVec 8)
  /-- a restart that waits for the pop of its response: ACTIVATE or reset, and its latest time. 14_command_reference.md R332; reset none: spec. -/
  restart : Option (Bool × Nat)
  deriving DecidableEq, Repr

/-- HostS at reset. -/
def HostS.reset : HostS where
  irqEn := 0xE
  mail := List.replicate 4 MailS.reset
  turn := 0
  running := []
  hsdo := []
  ringFrom := []
  ringTimes := []
  twbPtr := 0
  twbBuf := List.replicate 256 0
  twbOut := []
  uartSkip := false
  uartOut := []
  uartBuf := []
  gates := [0, 0, 0, 0]
  restart := none

/-- Configuration (14_command_reference.md, 09 R222 to R224). -/
structure CfgS where
  /-- committed parameters that differ from their default, by rising ID. 14_command_reference.md R334, 03_states_clocks_resets.md Table 3-9; reset []: spec. -/
  params : List ParamRec
  /-- configuration generation. 14_command_reference.md R321; reset 0: DC 3. -/
  gen : BitVec 32
  /-- pending rack set. 09_rack_coordination.md R224; reset []: spec. -/
  pending : List ParamRec
  /-- CFG_PENDING. 09_rack_coordination.md R224 CFG_PENDING; reset false: spec. -/
  hasPending : Bool
  /-- model time of its staging. 09_rack_coordination.md R224; reset 0: DC 3. -/
  pendingAt : Nat
  /-- commit order: G and T(c). 09_rack_coordination.md R224; reset none: spec. -/
  order : Option (BitVec 32 × Nat)
  /-- parameters in force, up to the next effect point. 14_command_reference.md R321; reset []: spec. -/
  effective : List ParamRec
  /-- a configuration commit is served in this turn. 14_command_reference.md Table 14-16; reset false: spec. -/
  commitBusy : Bool
  deriving DecidableEq, Repr

/-- CfgS at reset. -/
def CfgS.reset : CfgS where
  params := []
  gen := 0
  pending := []
  hasPending := false
  pendingAt := 0
  order := none
  effective := []
  commitBusy := false

/-- The state items a journal group carries (R341): parameters, counters with residues and ring time, the other
journal-class state, the pending rack set, and whether its counters are final ones; none leaves what earlier groups gave. -/
structure JItems where
  params   : Option (List ParamRec)
  counters : Option (List (Nat × Nat) × Int × Int × Nat)
  accounts : Option (List CellAcc)
  stepRs   : Option (List Rat)
  bins     : Option (List (List Bin) × List (List Bin))
  epoch    : Option (BitVec 32)
  pack     : Option (BitVec 64 × Bool × Nat)
  pending  : Option (List ParamRec × Nat)
  order    : Option (BitVec 32 × Nat)
  cut      : Option Bool
  deriving DecidableEq, Repr

/-- No items. -/
def JItems.reset : JItems := ⟨none, none, none, none, none, none, none, none, none, none⟩

/-- One journal group (R341 Table 15-3). -/
structure JGroup where
  /-- kind. 15_storage_and_recorder.md Table 15-3 KIND; reset 0: spec. -/
  kind : BitVec 8
  /-- journal sequence. 15_storage_and_recorder.md Table 15-3 SEQ; reset 0: spec. -/
  seq : BitVec 32
  /-- bytes of ITEMS. 15_storage_and_recorder.md Table 15-3 LEN; reset 0: spec. -/
  len : Nat
  /-- configuration generation. 15_storage_and_recorder.md Table 15-3 GEN; reset 0: spec. -/
  gen : BitVec 32
  /-- copy 0 is valid. 15_storage_and_recorder.md R343; reset false: DC 3. -/
  ok0 : Bool
  /-- copy 1 is valid. 15_storage_and_recorder.md R343; reset false: DC 3. -/
  ok1 : Bool
  /-- the state items it carries. 15_storage_and_recorder.md Table 15-3 ITEMS; reset JItems.reset: DC 3. -/
  items : JItems
  deriving DecidableEq, Repr

/-- JGroup at reset. -/
def JGroup.reset : JGroup where
  kind := 0
  seq := 0
  len := 0
  gen := 0
  ok0 := false
  ok1 := false
  items := JItems.reset

/-- One journal region (R341). -/
structure JRegion where
  /-- its header is valid. 15_storage_and_recorder.md R343; reset false: spec. -/
  valid : Bool
  /-- FIRST_SEQ. 15_storage_and_recorder.md R341 FIRST_SEQ; reset 0: spec. -/
  firstSeq : BitVec 32
  /-- its header has been written. 15_storage_and_recorder.md R341; reset false: spec. -/
  headed : Bool
  /-- groups from offset 0x100. 15_storage_and_recorder.md R341; reset []: spec. -/
  groups : List JGroup
  deriving DecidableEq, Repr

/-- JRegion at reset. -/
def JRegion.reset : JRegion where
  valid := false
  firstSeq := 0
  headed := false
  groups := []

/-- Non-volatile storage and the Sediment recorder (15_storage_and_recorder.md). -/
structure Store where
  /-- journal region A. 15_storage_and_recorder.md Table 15-1; reset JRegion.reset: spec. -/
  regA : JRegion
  /-- journal region B. 15_storage_and_recorder.md Table 15-1; reset JRegion.reset: spec. -/
  regB : JRegion
  /-- region B is active. 15_storage_and_recorder.md R341; reset false: DC 3. -/
  activeB : Bool
  /-- the journal is empty. 15_storage_and_recorder.md R343, R403; reset true: spec. -/
  empty : Bool
  /-- SEQ of the last committed group. 15_storage_and_recorder.md R403 (SEQ); reset 0xFFFFFFFF: spec. -/
  jseq : BitVec 32
  /-- compactions made. 14_command_reference.md R329; reset 0: DC 3. -/
  compactions : BitVec 32
  /-- compaction in progress: its next step and s. 15_storage_and_recorder.md R344; reset none: spec. -/
  compact : Option (Nat × BitVec 32)
  /-- the JOURNAL_COMPACT request that waits. 14_command_reference.md R329 JOURNAL_COMPACT; reset none: DC 3. -/
  compactReq : Option Req
  /-- recorder records, newest first. 15_storage_and_recorder.md R345; reset []: spec. -/
  recs : List Rec
  /-- SEQ of the next record. 15_storage_and_recorder.md R346; reset 0: spec. -/
  recNext : BitVec 32
  /-- records in the shore buffer, oldest first. 15_storage_and_recorder.md R346; reset []: spec. -/
  buffer : List Rec
  /-- event records of this operating second. 15_storage_and_recorder.md R346; reset 0: spec. -/
  secRecs : Nat
  /-- ring time of the last record that carries a full ring time. 15_storage_and_recorder.md R346; reset none: spec. -/
  lastFullTime : Option Nat
  /-- model time of the next periodic snapshot. 15_storage_and_recorder.md R346; reset 0: DC 3. -/
  snapAt : Nat
  /-- the capture samples kept, newest first. 15_storage_and_recorder.md R347; reset []: spec. -/
  capRing : List CapSample
  /-- capture idle, running or in hold-off. 15_storage_and_recorder.md R347; reset .idle: spec. -/
  capture : CapRun
  /-- SEQ of the trigger record. 15_storage_and_recorder.md R347; reset 0: DC 3. -/
  capTrig : BitVec 32
  /-- sample records written. 15_storage_and_recorder.md R347; reset 0: DC 3. -/
  capWritten : Nat
  /-- samples still to come. 15_storage_and_recorder.md R347; reset 0: DC 3. -/
  capLeft : Nat
  /-- end of the hold-off. 15_storage_and_recorder.md R347; reset 0: DC 3. -/
  capHold : Nat
  /-- the CAPTURE request that waits. 14_command_reference.md R329 CAPTURE; reset none: DC 3. -/
  capReq : Option Req
  /-- next page of the scrubber. 15_storage_and_recorder.md R340; reset 0: DC 3. -/
  scrubPage : Nat
  /-- pages that needed a correction in their last pass. 15_storage_and_recorder.md R340; reset []: DC 3. -/
  weak : List Nat
  /-- remapped pages and their spares. 15_storage_and_recorder.md R340; reset []: spec. -/
  remap : List (Nat × Nat)
  /-- snapshot area. 18_counters_trace_debug.md R395, 15_storage_and_recorder.md Table 15-1; reset []: spec. -/
  cuts : List Cut
  /-- cuts that wait to be written. 18_counters_trace_debug.md R395; reset []: spec. -/
  cutWait : List Cut
  /-- active model file slot, byte by offset. 08_model_engine.md R176; reset []: DC 4. -/
  fileActive : List Host.Cell
  /-- staged model file slot, byte by offset. 08_model_engine.md R176; reset []: DC 4. -/
  fileStaged : List Host.Cell
  /-- patch slot 0, byte by offset. 15_storage_and_recorder.md Table 15-1; reset []: DC 4. -/
  slot0 : List Host.Cell
  /-- patch slot 1, byte by offset. 15_storage_and_recorder.md Table 15-1; reset []: DC 4. -/
  slot1 : List Host.Cell
  /-- pages of model files and patch slots that hold an uncorrectable group. 15_storage_and_recorder.md R339, R340, Table 15-2; reset []: DC 3. -/
  badPages : List Nat
  /-- the retirements as MRAM holds them: form, cause and the mark for re-check. 04_cell_ladder.md R82 Table 4-2 STUCK_IN, R90 (MRAM); reset List.replicate 16 Level.reset: DC 3. -/
  levels : List Level
  /-- TAP_OPEN as MRAM holds it. 06_measurement.md Table 6-7 TAP_OPEN (MRAM); reset 0: DC 3. -/
  tapOpen : BitVec 17
  /-- journal items whose commit may not begin yet, for the next one that may. 15_storage_and_recorder.md R342, 07_charge_and_capacity.md R168; reset JItems.reset: DC 3. -/
  owed : JItems
  /-- model time by which the last journal write that nothing has waited for has ended. 15_storage_and_recorder.md R338, R342, Table 15-7; reset 0: DC 3. -/
  writeUntil : Nat
  /-- the two copies of the recorder pointer: the SEQ of the record that entered the page, whose slot is the write position; none = not valid. 15_storage_and_recorder.md R346 (recorder pointer); reset [none, none]: spec. -/
  recPtr : List (Option (BitVec 32))
  /-- pages to be remapped once a write may begin. 15_storage_and_recorder.md R340, 12_temperature_and_faults.md R286; reset []: DC 3. -/
  remapDue : List Nat
  deriving DecidableEq, Repr

/-- Store at reset. -/
def Store.reset : Store where
  regA := JRegion.reset
  regB := JRegion.reset
  activeB := false
  empty := true
  jseq := 0xFFFFFFFF
  compactions := 0
  compact := none
  compactReq := none
  recs := []
  recNext := 0
  buffer := []
  secRecs := 0
  lastFullTime := none
  snapAt := 0
  capRing := []
  capture := .idle
  capTrig := 0
  capWritten := 0
  capLeft := 0
  capHold := 0
  capReq := none
  scrubPage := 0
  weak := []
  remap := []
  cuts := []
  cutWait := []
  fileActive := []
  fileStaged := []
  slot0 := []
  slot1 := []
  badPages := []
  levels := List.replicate 16 Level.reset
  tapOpen := 0
  owed := JItems.reset
  writeUntil := 0
  recPtr := [none, none]
  remapDue := []

/-- Keys and life-cycle (16_security_lifecycle_update.md). -/
structure Keys where
  /-- life-cycle state. 13_host_port_and_mailboxes.md Table 13-4 LIFECYCLE, 16_security_lifecycle_update.md R355; reset .blank: spec. -/
  life : LifeCycle
  /-- "Returned, erasure pending" stands. 16_security_lifecycle_update.md R357; reset false: spec. -/
  erasing : Bool
  /-- rack key. 16_security_lifecycle_update.md R360; reset none: spec. -/
  rackKey : Option (List Byte)
  /-- pending rack key. 16_security_lifecycle_update.md R360; reset none: spec. -/
  rackPend : Option (List Byte)
  /-- pack key. 16_security_lifecycle_update.md R360; reset none: spec. -/
  packKey : Option (List Byte)
  /-- Operator credential. 16_security_lifecycle_update.md R359; reset none: spec. -/
  opCred : Option (List Byte)
  /-- Service credential. 16_security_lifecycle_update.md R359; reset none: spec. -/
  svCred : Option (List Byte)
  /-- identity key pair: number of the draw it was made by. 16_security_lifecycle_update.md R364; reset none: spec. -/
  identity : Option Nat
  /-- opcode, mailbox and cause of the last refusals, newest first. 16_security_lifecycle_update.md R362; reset []: spec. -/
  log : List (BitVec 16 × BitVec 8 × RefusalCause)
  /-- a fresh challenge under a new pack key is due by then. 16_security_lifecycle_update.md R360; reset none: spec. -/
  packAuthDue : Option Nat
  /-- rollback floor. 16_security_lifecycle_update.md R369; reset 0: DC 3. -/
  floor : BitVec 32
  deriving DecidableEq, Repr

/-- Keys at reset. -/
def Keys.reset : Keys where
  life := .blank
  erasing := false
  rackKey := none
  rackPend := none
  packKey := none
  opCred := none
  svCred := none
  identity := none
  log := []
  packAuthDue := none
  floor := 0

/-- Patch images and activation (16_security_lifecycle_update.md). -/
structure Update where
  /-- active slot: none = ROM alone, false = slot 0, true = slot 1. 16_security_lifecycle_update.md R374, R375; reset none: spec. -/
  activeSlot : Option Bool
  /-- VERSION, PROTO and band of the active image. 16_security_lifecycle_update.md R370; reset VersionRep.reset: spec. -/
  active : VersionRep
  /-- PATCH of the active image. 13_host_port_and_mailboxes.md Table 13-3 PATCH; reset 0: spec. -/
  patch : BitVec 8
  /-- state of the inactive slot. 14_command_reference.md R331 STATE; reset .empty: spec. -/
  img : ImgState
  /-- header fields of the verified inactive image. 14_command_reference.md R331; reset VersionRep.reset: DC 3. -/
  imgInfo : VersionRep
  /-- PATCH of the verified inactive image. 16_security_lifecycle_update.md Table 16-6; reset 0: DC 3. -/
  imgPatch : BitVec 8
  /-- FLOOR of the verified inactive image. 16_security_lifecycle_update.md Table 16-6 FLOOR; reset 0: DC 3. -/
  imgFloor : BitVec 32
  /-- DIGEST_L of the verified inactive image. 16_security_lifecycle_update.md R368 DIGEST_L; reset 0: DC 3. -/
  imgDigest : BitVec 32
  /-- chunks held of the inactive image. 14_command_reference.md R331 CHUNKS; reset []: spec. -/
  chunks : List Nat
  /-- the ACTIVATE request that waits for its grant. 16_security_lifecycle_update.md R373; reset none: DC 3. -/
  actReq : Option Req
  /-- model time of the activation request. 16_security_lifecycle_update.md R373; reset 0: DC 3. -/
  actAt : Nat
  /-- an activation restart is in progress. 16_security_lifecycle_update.md R374; reset false: spec. -/
  activating : Bool
  /-- start of the trial. 16_security_lifecycle_update.md R375; reset none: spec. -/
  trial : Option Nat
  /-- time in Run that the trial has had before its present stretch in Run. 16_security_lifecycle_update.md R375; reset 0: DC 3. -/
  trialRun : Nat
  /-- slot active before the activation. 16_security_lifecycle_update.md R375; reset none: DC 3. -/
  prevSlot : Option Bool
  /-- FLOOR to be taken when the trial ends. 16_security_lifecycle_update.md R375; reset 0: DC 3. -/
  floorNew : BitVec 32
  deriving DecidableEq, Repr

/-- Update at reset. -/
def Update.reset : Update where
  activeSlot := none
  active := VersionRep.reset
  patch := 0
  img := .empty
  imgInfo := VersionRep.reset
  imgPatch := 0
  imgFloor := 0
  imgDigest := 0
  chunks := []
  actReq := none
  actAt := 0
  activating := false
  trial := none
  trialRun := 0
  prevSlot := none
  floorNew := 0

/-- Two-wire bus A (17_local_buses.md). -/
structure BusA where
  /-- the secure partition holds bus A. 16_security_lifecycle_update.md Table 16-1, 17_local_buses.md R381; reset false: spec. -/
  held : Bool
  /-- transactions that wait, token transactions first. 17_local_buses.md R381; reset []: spec. -/
  queue : List BusTx
  /-- arbitration losses of the transaction in progress. 17_local_buses.md R380; reset 0: spec. -/
  losses : Nat
  /-- a target holds SCL low. 17_local_buses.md R379; reset false: spec. -/
  sclStuck : Bool
  /-- recovery is due at the next transaction. 17_local_buses.md R379, R381; reset false: spec. -/
  sdaStuck : Bool
  /-- both lines are released. 17_local_buses.md R381; reset true: spec. -/
  released : Bool
  /-- polls made of the attempt. 17_local_buses.md R383; reset 0: spec. -/
  polls : Nat
  /-- outcome and data of the last transaction. 17_local_buses.md R381; reset []: MODEL 5. -/
  answers : List (Bool × List Byte)
  deriving DecidableEq, Repr

/-- BusA at reset. -/
def BusA.reset : BusA where
  held := false
  queue := []
  losses := 0
  sclStuck := false
  sdaStuck := false
  released := true
  polls := 0
  answers := []

/-- Counters, histograms and trace (18_counters_trace_debug.md). -/
structure Count where
  /-- event counters. 18_counters_trace_debug.md R390 Table 18-1; reset List.replicate 96 0: DC 3. -/
  counters : List Nat
  /-- GAP flags. 18_counters_trace_debug.md R391; reset List.replicate 96 true: spec. -/
  gap : List Bool
  /-- histograms. 18_counters_trace_debug.md R392 Table 18-2; reset List.replicate 8 (List.replicate 32 0): DC 3. -/
  hist : List (List Nat)
  /-- shore mirror of the counters. 03_states_clocks_resets.md R79; reset List.replicate 96 0: DC 3. -/
  mirror : List Nat
  /-- shore mirror of the histograms. 03_states_clocks_resets.md R79; reset List.replicate 8 (List.replicate 32 0): DC 3. -/
  mirrorHist : List (List Nat)
  /-- hold-up checkpoint. 03_states_clocks_resets.md Table 3-9, 18_counters_trace_debug.md R391; reset none: spec. -/
  checkpoint : Option (List Nat × List (List Nat))
  /-- the checkpoint was written at the hold-up entry that ended in this loss of power. 18_counters_trace_debug.md R391, 12_temperature_and_faults.md R286; reset false: DC 3. -/
  ckptFresh : Bool
  /-- SNAPSHOT commands since the last controller reset. 18_counters_trace_debug.md R394 NUMBER; reset 0: spec. -/
  snapCount : BitVec 32
  /-- SNAP orders that wait, oldest first: ORDER, EPOCH, T_LATCH. 18_counters_trace_debug.md R395; reset []: spec. -/
  orders : List (BitVec 32 × BitVec 32 × Nat)
  /-- precise buffer, oldest first. 18_counters_trace_debug.md R397; reset []: spec. -/
  precise : List Precise
  /-- firmware trace, oldest first. 18_counters_trace_debug.md R398; reset []: DC 3. -/
  trace : List Trace
  /-- counters whose overflow interrupt has arrived. 18_counters_trace_debug.md R397; reset []: MODEL 5. -/
  irqs : List Nat
  deriving DecidableEq, Repr

/-- Count at reset. -/
def Count.reset : Count where
  counters := List.replicate 96 0
  gap := List.replicate 96 true
  hist := List.replicate 8 (List.replicate 32 0)
  mirror := List.replicate 96 0
  mirrorHist := List.replicate 8 (List.replicate 32 0)
  checkpoint := none
  ckptFresh := false
  snapCount := 0
  orders := []
  precise := []
  trace := []
  irqs := []

/-- Debug port (18 R399, R400, Table 18-5). -/
structure Debug where
  /-- command processor halted. 18_counters_trace_debug.md Table 18-5 HALTED_CP; reset false: spec. -/
  haltedCp : Bool
  /-- loop processor halted. 18_counters_trace_debug.md Table 18-5 HALTED_LP; reset false: spec. -/
  haltedLp : Bool
  /-- halt held by a locked sequence: command, loop processor. 18_counters_trace_debug.md Table 18-5 HALT_PENDING; reset none: spec. -/
  pend : Option (Bool × Bool)
  /-- locked sequence. 18_counters_trace_debug.md Table 18-5 LOCK; reset 0: spec. -/
  lock : BitVec 2
  /-- forced halt. 18_counters_trace_debug.md Table 18-5 FORCED; reset false: spec. -/
  forced : Bool
  /-- data of the last debug read. 18_counters_trace_debug.md R399; reset []: MODEL 5. -/
  data : List Byte
  deriving DecidableEq, Repr

/-- Debug at reset. -/
def Debug.reset : Debug where
  haltedCp := false
  haltedLp := false
  pend := none
  lock := 0
  forced := false
  data := []

/-- The engine at reset: tile k serves level k (R172). -/
def Engine.atReset : Engine :=
  { Engine.reset with tiles := (List.finRange 16).map (fun k => { Tile.reset with cell := some k }) }

/-- The rails at reset: the fixed set values and the default frequencies (Table 11-1); channel 3 at its default. -/
def Aux.atReset : Aux :=
  { Aux.reset with rails :=
      [{ Rail.reset with vset := 750, fsw := 1000 }, { Rail.reset with vset := 1800, fsw := 1000 },
       { Rail.reset with vset := 5000, fsw := 500 }, { Rail.reset with vset := 12000, fsw := 400 }] }

/-- The whole machine. Every field but free and pending is a group of the spec's own state. -/
structure State where
  /-- the ladder, the guard and admission. 04_cell_ladder.md; reset Ladder.reset: spec. -/
  lad : Ladder
  /-- the scheduler, the trim carrier and the voltage loop. 05_ladder_modulation.md; reset Modulation.reset: spec. -/
  mod : Modulation
  /-- power state, clocks, resets. 03_states_clocks_resets.md; reset Clocks.reset: spec. -/
  clk : Clocks
  /-- supplies and the hold-up store. 02_package_and_supplies.md; reset Supply.reset: spec. -/
  sup : Supply
  /-- measurement. 06_measurement.md; reset Measure.reset: spec. -/
  meas : Measure
  /-- charge accounting and the cell pack. 07_charge_and_capacity.md; reset Charge.reset: spec. -/
  chg : Charge
  /-- the model engine. 08_model_engine.md; reset Engine.atReset: spec. -/
  eng : Engine
  /-- rack coordination. 09_rack_coordination.md; reset Rack.reset: spec. -/
  rack : Rack
  /-- the ring link. 10_relide_ring.md; reset Ring.reset: spec. -/
  ring : Ring
  /-- auxiliary rails and electronic fuses. 11_aux_power.md; reset Aux.atReset: spec. -/
  aux : Aux
  /-- temperatures and faults. 12_temperature_and_faults.md; reset Faults.reset: spec. -/
  flt : Faults
  /-- host port, mailboxes and local links. 13_host_port_and_mailboxes.md, 17_local_buses.md; reset HostS.reset: spec. -/
  host : HostS
  /-- configuration. 14_command_reference.md, 09_rack_coordination.md; reset CfgS.reset: spec. -/
  cfg : CfgS
  /-- journal, recorder, files and cuts. 15_storage_and_recorder.md; reset Store.reset: spec. -/
  nv : Store
  /-- keys and life-cycle. 16_security_lifecycle_update.md; reset Keys.reset: spec. -/
  key : Keys
  /-- patch images and activation. 16_security_lifecycle_update.md; reset Update.reset: spec. -/
  upd : Update
  /-- two-wire bus A. 17_local_buses.md; reset BusA.reset: spec. -/
  busA : BusA
  /-- counters, histograms and trace. 18_counters_trace_debug.md; reset Count.reset: spec. -/
  cnt : Count
  /-- the debug port. 18_counters_trace_debug.md; reset Debug.reset: spec. -/
  dbg : Debug
  /-- the next free value. model's own: numbers the values the spec leaves open; reset 0: MODEL 2. -/
  free : Nat
  /-- commands waiting, first in, first out. model's own: the commands that wait; reset []: MODEL 1. -/
  pending : List Instr
  deriving DecidableEq, Repr

/-- State at reset. -/
def State.reset : State where
  lad := Ladder.reset
  mod := Modulation.reset
  clk := Clocks.reset
  sup := Supply.reset
  meas := Measure.reset
  chg := Charge.reset
  eng := Engine.atReset
  rack := Rack.reset
  ring := Ring.reset
  aux := Aux.atReset
  flt := Faults.reset
  host := HostS.reset
  cfg := CfgS.reset
  nv := Store.reset
  key := Keys.reset
  upd := Update.reset
  busA := BusA.reset
  cnt := Count.reset
  dbg := Debug.reset
  free := 0
  pending := []

end Sys2Proof.Machine
end

