-- ==== Sys2Proof/Machine/Operands.lean ====
section
/-! DEFINITION. The operand forms: parameters and their records (R319, R320, R334, Table 14-3), the checks of a staged value,
and the configuration digest (R222). -/

namespace Sys2Proof.Machine

/-- One parameter as its table gives it: the counts it takes, the bounds of its elements in units of their step (the last
bounds serve every further element), whether only even elements or only listed values are admitted, and its default. -/
structure PSpec where
  id     : Nat
  minC   : Nat
  maxC   : Nat
  bounds : List (Int × Int)
  even   : Bool
  listed : List Int
  deflt  : List Int
  deriving DecidableEq, Repr

/-- A parameter of one element. -/
def PSpec.one (id : Nat) (lo hi d : Int) : PSpec := ⟨id, 1, 1, [(lo, hi)], false, [], [d]⟩

/-- A parameter of one element out of a list of values. -/
def PSpec.ofList (id : Nat) (l : List Int) (d : Int) : PSpec := ⟨id, 1, 1, [(0, 0)], false, l, [d]⟩

/-- A parameter of two elements. -/
def PSpec.pair (id : Nat) (lo1 hi1 lo2 hi2 d1 d2 : Int) : PSpec := ⟨id, 2, 2, [(lo1, hi1), (lo2, hi2)], false, [], [d1, d2]⟩

/-- The temperature and fault settings (Table 12-6). -/
def faultParams : List PSpec :=
  [.one 0x0100 80 120 110, .one 0x0101 90 130 120, .one 0x0102 100 140 135, .one 0x0103 2 20 10,
   .pair 0x0104 (-30) 20 30 70 0 55, .pair 0x0105 (-40) 0 40 75 (-20) 60, .one 0x0106 1 10 2]
  ++ (List.range 27).map (fun b => .one (0x0143 + b) 1 255 8)
  ++ (List.range 27).map (fun b => .one (0x0163 + b) 1 3600 10)

/-- The default assignment of NTC input j (Table 1-2). -/
def ntcDefault (j : Nat) : Int :=
  if j ≤ 16 then j else if j = 17 then 0x11 else if j = 18 then 0x12 else if j = 19 then 0x13 else if j = 20 then 0x14 else 0

/-- The settings of Table 14-15. -/
def commandParams : List PSpec :=
  [.one 0x0110 5 200 20, .one 0x0111 0 604800 0, .one 0x0112 0 1 1, .one 0x0113 10 1000 100,
   .one 0x0120 0 2 1, .one 0x0121 10 255 50, .one 0x0122 0 255 60, .one 0x0123 0 1 1, .one 0x0124 0x08 0x77 0x3A,
   .one 0x0125 115200 3000000 115200, .one 0x0200 0 0xFFFFFFFFFFFFFFFF 0, ⟨0x0300, 1, 1, [(0, 16)], false, [0, 8, 9, 10, 11, 12, 13, 14, 15, 16], [0]⟩,
   .one 0x0301 10 250 250, .one 0x0302 64 1600 160, .one 0x0303 400 960 760, .one 0x0304 300 700 460,
   .one 0x0305 40 90 70, .one 0x0306 25 500 400, .one 0x0307 5 2000 500, .one 0x0308 0 8 2, .one 0x0309 20 10000 100,
   .one 0x030A 5 200 50, .one 0x030B 0 1 0, .one 0x0900 50 95 75, .one 0x0901 0 3600 60, .one 0x0902 0 15 15,
   .one 0x0C00 0 1 0]
  ++ (List.range 24).map (fun j => .one (0x0411 + j) 0 0x15 (ntcDefault (j + 1)))

/-- The modulation settings (Table 5-2). -/
def modParams : List PSpec :=
  [.ofList 0x0320 [4, 8, 16, 32] 16, ⟨0x0321, 1, 1, [(16000, 160000)], true, [], [64000]⟩, .one 0x0322 0 500 100,
   .one 0x0323 0 255 0, .one 0x0324 0 100 25, .one 0x0325 1 100 10, .one 0x0326 0 50 20, .one 0x0327 0 1 1]

/-- The measurement settings (Table 6-6). -/
def measParams : List PSpec :=
  [.one 0x0400 0 50 10, .one 0x0401 10 200 100, .one 0x0402 0 100 20, .one 0x0403 2000 100000 10000,
   .one 0x0404 (-200) 200 0, .one 0x0405 50 2000 750, .one 0x0406 3000 4500 3435, .one 0x0407 0 100 40,
   .one 0x0408 5 2000 50, .one 0x0409 1 90 30, .one 0x040A 0 10000 0, .one 0x040B 5 100 20]

/-- The accounting settings (Table 7-6). -/
def accountParams : List PSpec :=
  [.one 0x0500 400 940 720, .one 0x0501 1 20 5, .one 0x0502 30 3600 300, .one 0x0503 320 680 510, .one 0x0504 1 20 5,
   .one 0x0505 30 3600 300, .one 0x0506 0 3 3, .pair 0x0507 (-20) 60 (-20) 60 15 40, .one 0x0508 1 40 10,
   .one 0x0509 1 720 72, .one 0x050A 1 20 5, .one 0x050B 1000 2000000 300000, .pair 0x050C 50 100 100 150 80 110,
   .one 0x050D 1 365 30]

/-- The engine settings (Table 8-8). -/
def engineParams : List PSpec :=
  [.one 0x0600 0 2 2, .ofList 0x0601 [16, 32, 64] 32, .ofList 0x0602 [1250, 2500, 5000, 10000, 20000] 10000,
   .one 0x0603 0 100 20, .one 0x0604 1 60 10, .one 0x0605 30 80 60, .one 0x0606 400 950 740, .one 0x0607 310 690 480,
   .one 0x0608 0 100 20, .one 0x0609 0 1 1, .one 0x060A 0 50 10, .one 0x060B 50 99 90, .one 0x060C 5 100 20,
   .one 0x060E 0 0xFFFFFFFFFFFFFFFF 0,
   .one 0x0610 0 300 10, .one 0x0611 0 300 30, .one 0x0612 0 300 50, .one 0x0613 0 300 50, .one 0x0614 0 300 20,
   .one 0x0618 0 500 30, .one 0x0619 0 500 60, .one 0x061A 0 500 100, .one 0x061B 0 500 100, .one 0x061C 0 500 50]

/-- The rack settings (Table 9-11). -/
def rackParams : List PSpec :=
  [.one 0x0700 0 15000 8200, .one 0x0701 10 10000 100, .one 0x0702 1 2000 100, .one 0x0703 0 1000 20, .one 0x0704 0 1000 50,
   .one 0x0705 50 100000 500, .pair 0x0706 0 2000 0 2000 400 400, .one 0x0707 0 1500 700, .one 0x0708 0 1500 780,
   .one 0x0709 1 1000 10, .one 0x070A 0 1 1, .one 0x070B 5 100 20, .one 0x070C 50 5000 900, .pair 0x070D 40 120 40 120 80 100,
   .one 0x070E 1 100 10, ⟨0x070F, 1, 8, [(1, 32)], false, [], [1, 2, 3, 4, 5, 6, 7, 8]⟩]

/-- The settings of regulator channel x (Table 11-11). -/
def railParams (x : Nat) : List PSpec :=
  [.one (0x0800 + 0x10 * x) 2 20 ([10, 10, 5, 4].getD x 10), .one (0x0801 + 0x10 * x) 1 200 (if x = 3 then 20 else 10),
   .one (0x0802 + 0x10 * x) 10 75 50, .one (0x0803 + 0x10 * x) 5 20 10, .one (0x0804 + 0x10 * x) 0 23 (6 * x),
   .one (0x0806 + 0x10 * x) 5 50 10]

/-- The settings of eFuse channel x + 1 (Table 11-11). -/
def fuseParams (x : Nat) : List PSpec :=
  let b := 0x0840 + 0x10 * x
  [.one b 10 10000 100, .one (b + 1) 5 50 25]
  ++ (if x < 4 then [.one (b + 2) 2 4 3, .one (b + 3) 1 1000 100] else [.one (b + 3) 10 5000 500])
  ++ [.one (b + 4) 1 100 20, .one (b + 5) 1 1000 100, .one (b + 6) 30 600 120, .ofList (b + 7) [0, 3] (if x < 4 then 3 else 0),
      .one (b + 8) 0 1 0]

/-- The auxiliary power settings (Table 11-11). -/
def auxParams : List PSpec :=
  (List.range 4).flatMap railParams ++ [.one 0x0835 800 1400 1200] ++ (List.range 6).flatMap fuseParams
  ++ [⟨0x08C0, 1, 12, [(0, 0)], false, [0x00, 0x03, 0x21, 0x22, 0x23, 0x24, 0x25, 0x26, 0x30, 0x31],
        [0x03, 0x21, 0x22, 0x23, 0x24, 0x31, 0x00]⟩,
      .one 0x08C1 0 1000 2, .one 0x08C2 0 1000 10, .one 0x08C3 0 0x7F 0x5F, .one 0x08C4 0 0xFF 0x81, .one 0x08C5 1 1000 50,
      .one 0x08C6 10 10000 100]

/-- Every parameter (Table 14-14). -/
def paramTable : List PSpec :=
  faultParams ++ commandParams ++ modParams ++ measParams ++ accountParams ++ engineParams ++ rackParams ++ auxParams

/-- The parameter of an ID; none for an ID listed nowhere (R334). -/
def paramSpec (id : Nat) : Option PSpec := paramTable.find? (·.id == id)

/-- Whether the row reaches below zero (R319). -/
def PSpec.signed (p : PSpec) : Bool := p.bounds.any (·.1 < 0)

/-- Whether one element, in position i, lies in the row's range (R319). -/
def PSpec.admits (p : PSpec) (i : Nat) (v : Int) : Bool :=
  if p.listed.isEmpty then
    let b := p.bounds.getD i (p.bounds.getLastD (0, 0))
    decide (b.1 ≤ v ∧ v ≤ b.2) && (!p.even || v % 2 == 0)
  else p.listed.contains v

/-- Whether a list of elements lies in the row's range. -/
def PSpec.admitsAll (p : PSpec) (vs : List Int) : Bool := vs.zipIdx.all fun v => p.admits v.2 v.1

/-- The values of a parameter in a set that holds what differs from the defaults (R334). -/
def paramIn (set : List ParamRec) (id : Nat) : List Int :=
  match set.find? (·.id == id) with
  | some r => r.vals
  | none => ((paramSpec id).map (·.deflt)).getD []

/-- Puts a record into a set, by rising ID. -/
def putParam (r : ParamRec) : List ParamRec → List ParamRec
  | [] => [r]
  | q :: qs => if r.id < q.id then r :: q :: qs else if r.id = q.id then r :: qs else q :: putParam r qs

/-- A set overlaid with another (R320). -/
def overlay (base top : List ParamRec) : List ParamRec := top.foldl (fun b r => putParam r b) base

/-- Rack-wide parameters (R222). -/
def rackWide (id : Nat) : Bool := decide (0x0700 ≤ id ∧ id ≤ 0x070F) || id == 0x0320 || id == 0x0321

/-- The smallest element size that holds every value (R319). -/
def sizeFor (signed : Bool) (vs : List Int) : Nat :=
  let fits := fun (n : Nat) => vs.all fun v =>
    if signed then decide (-(2 ^ (8 * n - 1) : Int) ≤ v ∧ v < (2 ^ (8 * n - 1) : Int)) else decide (v < (2 ^ (8 * n) : Int))
  if fits 1 then 1 else if fits 2 then 2 else if fits 4 then 4 else 8

/-- The record of a parameter as CFG_READ returns it (Table 14-3, R319). -/
def recordBytes (id : Nat) (vs : List Int) : List Byte :=
  let n := sizeFor (((paramSpec id).map (·.signed)).getD false) vs
  leBytes 2 id ++ leBytes 1 n ++ leBytes 1 vs.length ++ vs.flatMap (leInt n)

/-- The rack-wide parameter IDs in ascending order (R222). -/
def rackWideIds : List Nat := [0x0320, 0x0321] ++ (List.range 16).map (0x0700 + ·)

/-- The rack-wide configuration digest: the first 8 bytes of SHA-256 over the rack-wide records (R222). -/
def digestOf (set : List ParamRec) : List Byte :=
  (sha256 (rackWideIds.flatMap fun id => recordBytes id (paramIn set id))).take 8

/-- A parsed record of Table 14-3: its ID, its element bytes, and the bytes that follow it. -/
structure RawRec where
  id   : Nat
  els  : List (List Byte)
  rest : List Byte
  deriving DecidableEq, Repr

/-- Cuts a byte string into c elements of n bytes. -/
def chunks (n : Nat) : Nat → List Byte → List (List Byte)
  | 0, _ => []
  | c + 1, bs => bs.take n :: chunks n c (bs.drop n)

/-- Takes one record from the front; none when it is malformed in SIZE or COUNT, or runs past the end (R320). -/
def takeRecord (bs : List Byte) : Option RawRec :=
  let id := fieldAt bs 0 2
  let n := fieldAt bs 2 1
  let c := fieldAt bs 3 1
  if bs.length < 4 then none
  else if !(n == 1 || n == 2 || n == 4 || n == 8) then none
  else if c == 0 || bs.length < 4 + n * c then none
  else some ⟨id, chunks n c (bs.drop 4), bs.drop (4 + n * c)⟩

/-- Why a record is refused. -/
inductive RecFault where
  | badField | badState
  deriving DecidableEq, Repr

/-- A record's COUNT is one that its parameter takes; an ID that is listed nowhere takes none (R320, R334). -/
def countOk (r : RawRec) : Bool :=
  match paramSpec r.id with
  | none => false
  | some p => decide (p.minC ≤ r.els.length ∧ r.els.length ≤ p.maxC)

/-- The record's values, once its ID, COUNT and range have been checked (R319, R320, R334). -/
def recordVals (r : RawRec) : Option ParamRec :=
  match paramSpec r.id with
  | none => none
  | some p =>
    if p.minC ≤ r.els.length ∧ r.els.length ≤ p.maxC then
      let vs := r.els.map fun e => if p.signed then leSigned e else (leNat e : Int)
      if p.admitsAll vs then some ⟨r.id, vs⟩ else none
    else none

/-- The location ID with its fields in the ranges of Table 0-4, reserved field and CELL 0 (R4). -/
def locationOk (v : Nat) : Bool := decide ((v / 2 ^ 16) % 256 ≤ 0x20) && v % 2 ^ 16 == 0

/-- The NTC inputs that are assigned to a point (Table 14-15). -/
def ntcOf (get : Nat → Int) (point : Int) : List Nat := (List.range 24).filter fun j => get (0x0411 + j) == point

/-- Every fitted cell has one NTC, and no cell, shunt, heatsink or coolant inlet has two (R18, R335). fitted: the levels that
count as fitted while the cell count is 0. -/
def ntcOk (get : Nat → Int) (fitted : List Nat) : Bool :=
  let n := (get 0x0300).toNat
  let cells := if n = 0 then fitted else List.range n
  (cells.all fun k => !(ntcOf get ((k : Int) + 1)).isEmpty)
  && ((List.range 16).all fun k => decide ((ntcOf get ((k : Int) + 1)).length ≤ 1))
  && ([0x11, 0x12, 0x14].all fun p => decide ((ntcOf get p).length ≤ 1))

/-- A sequence list names channel 3 at most once, and no eFuse fed by channel 3 before step 0x03 (Table 11-11). -/
def sequenceOk (get : Nat → Int) (l : List Int) : Bool :=
  let before := l.takeWhile (· != 0x03)
  decide ((l.filter (· == 0x03)).length ≤ 1)
  && (!l.contains 0x03 || before.all fun c =>
        !(decide (0x21 ≤ c ∧ c ≤ 0x26) && get (0x0847 + 0x10 * (c - 0x21).toNat) == 3))

/-- Whether the values overlaid with a staged set pass every cross-check that names parameter id (R320 and the rules cited
beside the parameter tables). files: the MODEL_IDs of the staged and the active slot, which 0x060E may name (Table 8-8). -/
def crossOk (set : List ParamRec) (fitted files : List Nat) (id : Nat) : Bool :=
  let vals := paramIn set
  let get := fun i => (vals i).getD 0 0
  let get2 := fun i => (vals i).getD 1 0
  let on := fun (ids : List Nat) (b : Bool) => !ids.contains id || b
  on [0x0100, 0x0101, 0x0102, 0x0103]
    (decide (get 0x0100 + get 0x0103 ≤ get 0x0101 ∧ get 0x0101 + get 0x0103 ≤ get 0x0102))
  && on [0x0104, 0x0105, 0x0305] (decide (get2 0x0104 + 5 ≤ get 0x0305 ∧ get2 0x0105 + 5 ≤ get 0x0305))
  && on [0x0200] (locationOk (get 0x0200).toNat)
  && on [0x0301, 0x0321] (decide (160 * get 0x0301 ≤ get 0x0321))
  && on [0x0303, 0x0304] (decide (get 0x0304 + 100 ≤ get 0x0303))
  && on [0x0500, 0x0303] (decide (get 0x0500 + 10 ≤ get 0x0303))
  && on [0x0503, 0x0304] (decide (get 0x0304 + 10 ≤ get 0x0503))
  && on [0x0606, 0x0303, 0x0500] (decide (get 0x0606 + 10 ≤ get 0x0303 ∧ get 0x0500 ≤ get 0x0606))
  && on [0x0607, 0x0304, 0x0503] (decide (get 0x0304 + 10 ≤ get 0x0607 ∧ get 0x0607 ≤ get 0x0503))
  && on [0x0307, 0x0405] (decide (get 0x0405 ≤ 10 * get 0x0307 ∧ get 0x0307 ≤ get 0x0405))
  && on [0x0403] (decide (62500 * 100 ≤ 838 * get 0x0403))
  && on [0x0507] (decide (get 0x0507 < get2 0x0507))
  && on [0x0707, 0x0708] (decide (get 0x0707 < get 0x0708))
  && on [0x070D] (decide (get 0x070D < get2 0x070D))
  && on [0x070F] (decide (vals 0x070F).Nodup)
  && on ((0x0300 : Nat) :: (List.range 24).map (0x0411 + ·)) (ntcOk get fitted)
  && on (0x08C0 :: (List.range 6).map (0x0847 + 0x10 * ·)) (sequenceOk get (vals 0x08C0))
  && on [0x060E] (get 0x060E == 0 || files.contains (get 0x060E).toNat)

/-- Takes records in order, checks each against the values overlaid with everything taken so far, and stops at the first that
fails: the staged set, the number taken, and the failure (R320): a malformed record first, then an ID of the wrong kind. rack: only rack-wide IDs are taken (RACK_STAGE), else only
others (R222); cap: the most parameters a staged set holds. fuel bounds the number of records. -/
def stageRecords (committed : List ParamRec) (fitted files : List Nat) (rack : Bool) (cap : Nat) :
    Nat → List Byte → List ParamRec → Nat → List ParamRec × Nat × Option RecFault
  | 0, _, st, n => (st, n, none)
  | fuel + 1, bs, st, n =>
    if bs.isEmpty then (st, n, none)
    else
      match takeRecord bs with
      | none => (st, n, some .badField)
      | some r =>
        if !countOk r then (st, n, some .badField)
        else if rackWide r.id && !rack then (st, n, some .badState)
        else if !rackWide r.id && rack then (st, n, some .badField)
        else
          match recordVals r with
          | none => (st, n, some .badField)
          | some p =>
            let st' := putParam p st
            if cap < st'.length then (st, n, some .badState)
            else if crossOk (overlay committed st') fitted files p.id then
              stageRecords committed fitted files rack cap fuel r.rest st' (n + 1)
            else (st, n, some .badField)

/-- The first parameter of a set that fails its checks against the committed values (R321). -/
def firstBad (committed staged : List ParamRec) (fitted files : List Nat) : Option Nat :=
  (staged.find? fun p =>
    !(match paramSpec p.id with | some q => q.admitsAll p.vals | none => false) || !crossOk (overlay committed staged) fitted files p.id).map (·.id)

end Sys2Proof.Machine
end

