-- ==== Sys2Proof/Machine/Ops.lean ====
section
/-! DEFINITION. The shared operations: parameters in force, levels and the shelf bypass switch, time, counters, the conditions
of an MRAM write, the recorder, the journal, and the mailbox queues. -/

namespace Sys2Proof.Machine

/-- What a meaning answers. -/
abbrev Out := Host.Outcome State Fault Refusal

/-- The first element of a parameter in force (R321). -/
def State.par (s : State) (id : Nat) : Int := (paramIn s.cfg.effective id).getD 0 0

/-- The second element of a parameter in force. -/
def State.par2 (s : State) (id : Nat) : Int := (paramIn s.cfg.effective id).getD 1 0

/-- A parameter in force as a whole number of at least 0. -/
def State.parN (s : State) (id : Nat) : Nat := (s.par id).toNat

/-- Milliseconds, microseconds and seconds in ns. -/
def ms (n : Nat) : Nat := n * 1000000
/-- Microseconds in ns. -/
def us (n : Nat) : Nat := n * 1000
/-- Seconds in ns. -/
def sec (n : Nat) : Nat := n * 1000000000

/-- Takes the number of the next free value. -/
def takeFree (s : State) : Nat × State := (s.free, { s with free := s.free + 1 })

/-! Levels and the shelf bypass switch -/

/-- The configured cell count n (R14). -/
def cellCount (s : State) : Nat := s.parN 0x0300

/-- The record of level k + 1. -/
def lvl (s : State) (k : Nat) : Level := s.lad.levels.getD k Level.reset

/-- Whether a level is present: up to n, or by its BSk before the first configuration (R15, R91). -/
def present (s : State) (k : Nat) : Bool := if cellCount s = 0 then (lvl s k).bsOk else decide (k < cellCount s)

/-- The present levels. -/
def presentLevels (s : State) : List Nat := (List.range 16).filter (present s)

/-- Retired in the stuck-in form (Table 4-2). -/
def Level.isStuckIn (l : Level) : Bool := l.st == .retired && l.stuckIn

/-- A present level that is neither retired nor parked (Table 5-1). -/
def available (s : State) (k : Nat) : Bool :=
  present s k && ((lvl s k).st == .bypassed || (lvl s k).st == .inserted || (lvl s k).st == .trim)

/-- The available levels. -/
def availableLevels (s : State) : List Nat := (List.range 16).filter (available s)

/-- The present levels that are retired stuck-in. -/
def stuckLevels (s : State) : List Nat := (List.range 16).filter fun k => present s k && (lvl s k).isStuckIn

/-- The present retired levels, which both forms count (R15, R90). -/
def retiredCount (s : State) : Nat := ((List.range 16).filter fun k => present s k && (lvl s k).st == .retired).length

/-- Replaces one level's record. -/
def modLevel (k : Nat) (f : Level → Level) (s : State) : State :=
  { s with lad := { s.lad with levels := s.lad.levels.modify k f } }

/-- Replaces every level's record. -/
def mapLevels (f : Nat → Level → Level) (s : State) : State :=
  { s with lad := { s.lad with levels := mapLvl s.lad.levels f } }

/-- A level turned to the bypassed state (Table 4-1); a retired or parked level keeps its state. No gate turns on while BSk is not up: a
pull-down holds it (R40). -/
def Level.bypass (l : Level) : Level :=
  if l.st == .retired || l.st == .parked then l else { l with st := .bypassed, insGate := false, bypGate := l.bsOk }

/-- A level turned to the inserted state (Table 4-1). -/
def Level.insert (l : Level) : Level := { l with st := .inserted, insGate := l.bsOk, bypGate := false }

/-- A level turned to trim: its gates alternate, and it is sensed inserted outside its bypass time (Table 4-1). -/
def Level.toTrim (l : Level) : Level := { l with st := .trim, insGate := l.bsOk, bypGate := false }

/-- A level parked with a cause (Table 4-3): insert gate off, bypass gate on. A retired level stays retired, and a level
parked before keeps its cause and gates. -/
def Level.park (cause : BitVec 4) (l : Level) : Level :=
  if l.st == .retired || l.st == .parked then l
  else { l with st := .parked, cause := cause, insGate := false, bypGate := l.bsOk, frozen := false, clearedAt := none }

/-- A level retired under Table 4-6 with the cause and the check result, in the stuck-in form or the bypassed form, with the
gates it holds. -/
def Level.retire (stuckIn : Bool) (cause : BitVec 4) (check : BitVec 3) (ins byp : Bool) (l : Level) : Level :=
  { l with st := .retired, stuckIn := stuckIn, cause := cause, check := check, insGate := ins && l.bsOk, bypGate := byp && l.bsOk, frozen := false,
           recheck := false, powerShort := false, clearedAt := none }

/-- The gates that a retired level holds: none with the insert switch shorted, the insert gate where the bypass switch would not conduct or
the insert gate would not turn off, the bypass gate in the bypassed form (Table 4-6, R84); none while BSk is not up (R40). -/
def Level.holdForm (l : Level) : Level :=
  { l with insGate := l.bsOk && l.stuckIn && l.cause == 0xE, bypGate := l.bsOk && !l.stuckIn }

/-- A level parked for check results 0x6 and 0x7, which holds both gates off (R88). -/
def Level.failed (l : Level) : Bool := l.st == .parked && l.cause == 0xF && (l.check == 6 || l.check == 7)

/-- A parked level that rightly holds both gates off with its cell out of the string path: one held at power-up with a bypass short, or parked for check
results 0x6 and 0x7 (R88, R91). -/
def Level.heldOff (l : Level) : Bool :=
  (l.st == .parked && l.powerShort && l.cause == 0xC) || l.failed

/-- A level that the shelf bypass hardware senses, at its gates, as bypassed, parked or retired in the bypassed form (R97, R99). -/
def Level.sensedOut (l : Level) : Bool :=
  !l.insGate && (l.st == .bypassed || l.st == .parked || (l.st == .retired && !l.stuckIn)) && (l.bypGate || l.heldOff)

/-- The pack disconnect of R89 is open: it has been opened, and channel 5 has not been switched on since. -/
def packOpen (s : State) : Bool :=
  s.lad.disc == .done && !((s.aux.fuses.getD 4 Efuse.reset).st == .ramping || (s.aux.fuses.getD 4 Efuse.reset).st == .on
    || (s.aux.fuses.getD 4 Efuse.reset).st == .limiting)

/-- Whether hardware allows the shelf bypass switch to be closed (R99). -/
def bypassAllowed (s : State) : Bool :=
  (List.range 16).all fun k => !present s k || (lvl s k).sensedOut || ((lvl s k).isStuckIn && packOpen s)

/-! The trim carrier (R109, R113) -/

/-- The first instant at or after t that is off past a multiple of step. -/
def instantFrom (step off t : Nat) : Nat := (t + (step - 1) - off) / step * step + off

/-- The carrier period in cycles of 3.2 GHz. -/
def carrierCycles (s : State) : Nat := max 1 (s.parN 0x0321)

/-- The cycle count of a ring time, rounded up; one cycle is 5/16 ns. -/
def cyclesAt (t : Nat) : Nat := (t * 16 + 4) / 5

/-- The first carrier valley at or after a cycle count, for a phase (R109). -/
def valleyFrom (s : State) (phase c : Nat) : Nat := instantFrom (carrierCycles s) (phase % carrierCycles s) c

/-- With the shelf bypass switch closed the carrier takes a new phase at the next valley, which has passed by now (R113). A move that was in progress
when the switch closed ends there too, by the valley after the phase was assigned (DESIGN CHOICE, log entry 192). -/
def settlePhase (s : State) : State :=
  match s.mod.phase with
  | some c =>
    if s.lad.sby && c != s.mod.phaseGoal && decide (valleyFrom s c (cyclesAt s.mod.phaseSetAt + 1) ≤ s.clk.ring * 16 / 5) then
      { s with mod := { s.mod with phase := some s.mod.phaseGoal } }
    else s
  | none => s

/-! The shelf bypass switch (R99) -/

/-- The shelf bypass switch closes where R99 allows it and its drive is up (R40). -/
def closeBypass (s : State) : State :=
  if s.lad.supplies && bypassAllowed s then { s with lad := { s.lad with sby := true } } else s

/-- The shelf bypass switch opens; a phase whose valley has passed while it was closed stands (R99, R113). -/
def openBypass (s : State) : State := { settlePhase s with lad := { (settlePhase s).lad with sby := false } }

/-- The hardware of R99 opens the shelf bypass switch whenever its conditions fail. -/
def enforceBypass (s : State) : State := if s.lad.sby && !bypassAllowed s then openBypass s else s

/-- Ends an anchor in progress without completing it: the taper limit is released and nothing is stored (R162). -/
def CellAcc.endAnchor (a : CellAcc) : CellAcc := { a with running := .none, taper := none, holdSince := none, lowSince := none }

/-- Ends the anchor of cell k + 1 (Table 7-3). -/
def endAnchorOf (k : Nat) (s : State) : State := { s with chg := { s.chg with cells := s.chg.cells.modify k CellAcc.endAnchor } }

/-- Ends every anchor in progress (Table 7-3). -/
def endAnchors (s : State) : State := { s with chg := { s.chg with cells := s.chg.cells.map CellAcc.endAnchor } }

/-- The trim level and the admission after the levels have changed: a parked trim level leaves trim (R97). -/
def dropTrim (s : State) : State :=
  { s with mod := { s.mod with trim := s.mod.trim.filter fun k => (lvl s k).st == .trim } }

/-- Parks one level; the scheduler reads it at the next period (R97). -/
def parkLevel (k : Nat) (cause : BitVec 4) (s : State) : State := dropTrim (modLevel k (Level.park cause) s)

/-- The causes under which the guard parked a cell's level (R98). -/
def guardCause (c : BitVec 4) : Bool := c = 0x2 || c = 0x3 || c = 0x5

/-- A parked level that the next start releases: parked by command, Still, hold-up, freeze expiry, a park-all or a start abort; not one
beside an open tap, and not one that the guard parked for its cell (R98). -/
def releasable (s : State) (k : Nat) : Bool :=
  let l := lvl s k
  l.st == .parked && !guardCause l.cause && !l.tapPark && !(s.lad.severeHold && (l.cause = 0x4 || l.cause = 0x6 || l.cause = 0x9))

/-- Ends admission, and with it its pre-start check: the shelf needs admission again (R98). The voltage loop starts the next time from
x = 0 (DESIGN CHOICE, log entry 148: R120 does not say what x is out of the string). -/
def endAdmission (s : State) : State :=
  { s with lad := { s.lad with adm := .out, checkLeft := if s.lad.adm == .checking then [] else s.lad.checkLeft, needCheck := true }, mod := { s.mod with integ := 0 } }

/-- Parks every present level that is not retired, with one cause, and ends admission. -/
def parkAll (cause : BitVec 4) (s : State) : State :=
  endAdmission (dropTrim (mapLevels (fun k l => if present s k then l.park cause else l) s))

/-- The guard's park all and close shelf bypass switch, parking first (R97). -/
def parkAndClose (cause : BitVec 4) (s : State) : State := closeBypass (parkAll cause s)

/-- The shelf's position s: the SHELF field of its location ID (R3, R20); 0 while unassigned. -/
def position (s : State) : Nat := (s.parN 0x0200 / 2 ^ 16) % 256

/-- The number N of shelves of the ring as far as it is known: the highest position that has been heard, the own one, and at least 2 (R20; log
entry 71). -/
def shelfCount (s : State) : Nat := max s.rack.shelves (position s)

/-- PLANT and SHELF are assigned (R5). -/
def located (s : State) : Bool := position s != 0 && s.parN 0x0200 / 2 ^ 48 != 0

/-- The control die is held in a reset of its own, with the power die going on: firmware does nothing until it resumes (R70 to R72, R77). -/
def inWarmReset (s : State) : Bool := s.clk.inReset.any (· != .powerOn)

/-- Firmware runs: in Run or Watch, and in no reset of its own (Table 3-1, R77). -/
def firmwareRuns (s : State) : Bool := (s.clk.pstate == .run || s.clk.pstate == .watch) && !inWarmReset s

/-! Time -/

/-- What of the ring time error is removed up to model time t, in whole ns: at most 100 ppm of the time that has passed (R67). -/
def slewed (s : State) (t : Nat) : Nat := min (s.clk.phaseErr.natAbs / 256) ((t - s.clk.slewAt) / 10000)

/-- Ring time dt later: a shelf that is ahead runs slower, one that is behind runs faster, by what is removed of the error (R67). -/
def ringAfter (s : State) (dt : Nat) : Nat :=
  let k := slewed s (s.clk.now + dt)
  if 0 < s.clk.phaseErr then s.clk.ring + dt - k else s.clk.ring + dt + k

/-- OPSEC counts whole seconds of ring time: it is held, in Run and in holdover (R345). -/
def opsecByRing (s : State) : Bool :=
  s.clk.pstate == .run && s.clk.ringKnown && (s.clk.timeState == .synced || s.clk.timeState == .holdover)

/-- Adds nanoseconds to the operating seconds; at each step of OPSEC the count of its event records starts anew (R345, R346). -/
def countSeconds (ns : Nat) (s : State) : State :=
  let t := s.clk.opsecNs + ns
  { s with clk := { s.clk with opsec := s.clk.opsec + BitVec.ofNat 32 (t / sec 1), opsecNs := t % sec 1 }
           nv := if t / sec 1 = 0 then s.nv else { s.nv with secRecs := 0 } }

/-- Lets model time pass: ring time, which is the own time of the node before it has been acquired, and operating seconds, by ring time where
it is held and by the shore clock otherwise (R244, R345). -/
def elapse (dt : Nat) (s : State) : State :=
  let k : Int := slewed s (s.clk.now + dt)
  let s := countSeconds (if opsecByRing s then ringAfter s dt - s.clk.ring else dt) s
  { s with
    clk := { s.clk with now := s.clk.now + dt, ring := ringAfter s dt,
                        phaseErr := if 0 < s.clk.phaseErr then s.clk.phaseErr - 256 * k else s.clk.phaseErr + 256 * k,
                        slewAt := s.clk.slewAt + 10000 * k.toNat } }

/-- An event that stands at time t has come: model time is t or later (log entry 1). -/
def advanceTo (t : Nat) (s : State) : State := elapse (t - s.clk.now) s

/-- An event that stands at ring time t has come; a shelf that runs slower takes a little longer. -/
def advanceRing (t : Nat) (s : State) : State :=
  let s := elapse (t - s.clk.ring) s
  elapse (t - s.clk.ring) s

/-- A time limit that has passed: now is at least d after t. -/
def since (s : State) (t d : Nat) : Bool := decide (t + d ≤ s.clk.now)

/-! Auxiliary channels -/

/-- The reference of a regulator channel at a model time: it moves linearly over its ramp (R257, R277). -/
def Rail.reference (r : Rail) (now : Nat) : Nat :=
  if r.rampTo ≤ now then r.vset
  else ((r.vfrom : Int) + ((r.vset : Int) - r.vfrom) * ((now - r.rampFrom : Nat) : Int) / ((r.rampTo - r.rampFrom : Nat) : Int)).toNat

/-- Replaces the record of regulator channel x. -/
def modRail (x : Nat) (f : Rail → Rail) (s : State) : State := { s with aux := { s.aux with rails := s.aux.rails.modify x f } }

/-- Replaces the record of eFuse channel x + 1. -/
def modFuse (x : Nat) (f : Efuse → Efuse) (s : State) : State := { s with aux := { s.aux with fuses := s.aux.fuses.modify x f } }

/-- An eFuse that is switched off with a cause; a damaged channel stays damaged (Table 11-9). -/
def Efuse.off (cause : BitVec 4) (f : Efuse) : Efuse := if f.st == .damaged then f else { f with st := .off, pg := false, cause := cause }

/-- Whether an eFuse channel conducts. -/
def Efuse.isOn (f : Efuse) : Bool := f.st == .on || f.st == .limiting || f.st == .ramping

/-! Counters and histograms -/

/-- Adds to an event counter (R390). -/
def countBy (c n : Nat) (s : State) : State := { s with cnt := { s.cnt with counters := s.cnt.counters.modify c (· + n) } }

/-- Adds 1 to an event counter (R390). -/
def count (c : Nat) (s : State) : State := countBy c 1 s

/-- The bin of a value (R392). -/
def binOf (v : Nat) : Nat := if v < 2 then 0 else min v.log2 31

/-- Counts a value in a histogram (R392). -/
def histAdd (h v : Nat) (s : State) : State :=
  { s with cnt := { s.cnt with hist := s.cnt.hist.modify h fun b => b.modify (binOf v) (· + 1) } }

/-- Counts a duration that the spec does not state (log entry 2). -/
def histFree (h : Nat) (s : State) : State := let p := takeFree s; histAdd h (Config.freeNat p.1) p.2

/-! The conditions of an MRAM write (R42, R286) -/

/-- The hold-up store holds 2.5 mJ above 6 V and a supply lies within 7 V to 65 V (R42, R46); in hold-up no commit begins
(R43). -/
def energyOk (s : State) : Bool :=
  !s.sup.faulty && !s.sup.holdup && decide (36000000 ≤ s.sup.vhold * s.sup.vhold)
  && decide (5000000000000 ≤ s.sup.ceff * (s.sup.vhold * s.sup.vhold - 36000000))
  && (decide (7000 ≤ s.sup.vmain ∧ s.sup.vmain ≤ 65000) || decide (7000 ≤ s.sup.vaux ∧ s.sup.vaux ≤ 65000))

/-- The readings of the valid control-die sensors [0.01 degC]. -/
def ctrlValid (s : State) : List Int := ((s.flt.ctrl.zip s.flt.ctrlOut).filter (!·.2)).map (·.1)

/-- The readings of the valid power-die sensors [0.01 degC]. -/
def powerValid (s : State) : List Int := ((s.flt.power.zip s.flt.powerOut).filter (!·.2)).map (·.1)

/-- The highest of a list of readings. -/
def highest : List Int → Option Int
  | [] => none
  | x :: xs => some (xs.foldl max x)

/-- The highest control-die reading lies from -40 degC to +115 degC (R286). -/
def nvWindow (s : State) : Bool :=
  match highest (ctrlValid s) with
  | some t => decide (-4000 ≤ t ∧ t ≤ 11500)
  | none => false

/-- A commit or a recorder write may begin. -/
def canWrite (s : State) : Bool := energyOk s && nvWindow s

/-- The status a request that needs a commit is answered with while none may begin: TEMP_WINDOW before NV_UNAVAILABLE
(R315). -/
def nvRefusal (s : State) : Option Byte :=
  if !nvWindow s then some 0x31 else if !energyOk s then some 0x30 else none

/-! FSTAT and the recorder -/

/-- Latches an FSTAT bit (R287). -/
def latch (b : Nat) (s : State) : State := { s with flt := { s.flt with fstat := s.flt.fstat ||| BitVec.ofNat 32 (2 ^ b) } }

/-- The record of an FSTAT source. -/
def sourceRec (s : State) (b : Nat) : Source := s.flt.sources.getD b Source.reset

/-- Replaces the record of an FSTAT source. -/
def modSource (b : Nat) (f : Source → Source) (s : State) : State :=
  { s with flt := { s.flt with sources := s.flt.sources.modify b f } }

/-- The events of a source within its window that ends now (R289). -/
def windowEvents (s : State) (b : Nat) : List Nat :=
  (sourceRec s b).events.filter fun t => decide (s.clk.now < t + sec (s.parN (0x0160 + b)))

/-- Counts an event of a source; N in the window make it severe (R289). -/
def countSource (b : Nat) (s : State) : State :=
  let ev := windowEvents s b ++ [s.clk.now]
  modSource b (fun r => if r.severe || decide (ev.length < s.parN (0x0140 + b)) then { r with events := ev }
                        else { r with events := ev, severe := true, severeAt := s.clk.now }) s

/-- A record is lost: it is counted, and RECORDER latches, a contained event that leaves no record of its own (R286, R346, Table 12-3). -/
def recordLost (s : State) : State := countSource 12 (latch 12 (count 75 s))

/-- The shore buffer of 64 records, which last-fault records share, is full (R286). -/
def bufferFull (s : State) : Bool := decide (64 ≤ s.nv.buffer.length + s.aux.waiting.length)

/-- Ring time of the shelf as records carry it (R345). -/
def stampRing (s : State) : Nat := if s.clk.ringKnown then s.clk.ring else 0

/-- Records the area holds once the record with this sequence number is written: the page after the writer's page has been cleared
(R346). -/
def recCapacity (seq : BitVec 32) : Nat := 65529 + seq.toNat % 4

/-- The kinds of record that carry a full ring time (Table 15-5). -/
def fullTimeKind (kind : Byte) : Bool := kind == 3 || kind == 4 || kind == 5

/-- The recorder pointer as a page is entered: the two copies are written alternately (R346). -/
def enterPage (seq : BitVec 32) (l : List (Option (BitVec 32))) : List (Option (BitVec 32)) :=
  if seq.toNat % 4 = 0 then l.set (seq.toNat / 4 % 2) (some seq) else l

/-- Gives a record its sequence number and writes it, or lets it wait in the shore buffer behind the records that wait; a
record beyond 64 is lost (R345, R346). rt: the ring time of its event. -/
def putRecordAt (rt : Nat) (kind source : Byte) (inj : Bool) (payload : List Byte) (s : State) : State :=
  let now := canWrite s && s.nv.buffer.isEmpty
  let fl := bit inj 0 + bit (!s.clk.ringKnown) 1 + bit (s.clk.ringKnown && s.clk.pstate != .run) 2 + bit (!now) 3
  let r : Rec := ⟨s.nv.recNext, s.clk.opsec, s.clk.cycles, BitVec.ofNat 32 rt, kind, source, BitVec.ofNat 4 fl, fitBytes 40 payload, true⟩
  let full := if fullTimeKind kind && s.clk.ringKnown then some rt else s.nv.lastFullTime
  if now then
    count 74 { s with nv := { s.nv with recs := (r :: s.nv.recs).take (recCapacity r.seq), recNext := s.nv.recNext + 1, lastFullTime := full,
                                        recPtr := enterPage r.seq s.nv.recPtr } }
  else if !bufferFull s then
    { s with nv := { s.nv with buffer := s.nv.buffer ++ [r], recNext := s.nv.recNext + 1, lastFullTime := full } }
  else recordLost s

/-- A record of an event of this moment. -/
def putRecord (kind source : Byte) (inj : Bool) (payload : List Byte) (s : State) : State :=
  putRecordAt (stampRing s) kind source inj payload s

/-- Writes an event record; beyond 100 in one operating second it is counted as lost (R346). ev numbers the event of the source,
level is 0 for the shelf, cls is its class, data its DATA (Table 15-5). -/
def eventRecordOf (source ev level cls : Nat) (inj : Bool) (data : List Byte) (s : State) : State :=
  if 100 ≤ s.nv.secRecs then recordLost s
  else
    let s := { s with nv := { s.nv with secRecs := s.nv.secRecs + 1 } }
    putRecord 0x01 (BitVec.ofNat 8 source) inj
      (bvBytes 2 (Config.eventCode source ev) ++ leBytes 1 level ++ leBytes 1 cls ++ fitBytes 36 data) s

/-- An event record whose DATA is not stated (log entry 6). -/
def eventRecord (source ev level cls : Nat) (inj : Bool) (s : State) : State :=
  let p := takeFree s
  eventRecordOf source ev level cls inj (Config.eventData source ev p.1) p.2

/-! The limits of the charge counters (R155) -/

/-- One LSB of a counter in the integrator's steps of 2^-16 LSB. -/
def lsb : Int := 65536

/-- A signed counter held at the limits of its 64-bit format (R155), and whether it was limited. -/
def satSigned (v : Int) : Int × Bool :=
  let hi : Int := (2 ^ 63 - 1) * lsb
  let lo : Int := -(2 ^ 63) * lsb
  if hi < v then (hi, true) else if v < lo then (lo, true) else (v, false)

/-- An unsigned counter held at the limit of its 64-bit format (R155), and whether it was limited. -/
def satGross (v : Nat) : Nat × Bool := if (2 ^ 64 - 1) * 65536 < v then ((2 ^ 64 - 1) * 65536, true) else (v, false)

/-- A journal commit is refused: JOURNAL latches with an event record, and the event counts as contained (R286 to R288, Table 12-3; its class is log
entry 187). -/
def journalRefused (s : State) : State := countSource 13 (eventRecord 13 0 0 2 false (latch 13 s))

/-! The journal -/

/-- Bytes of ITEMS of a group: the records of its parameters, the counters as the example of 15 gives them, and state items
of unstated size (Table 15-3, log entry 7). -/
def itemBytes (s : State) (i : JItems) : Nat :=
  let recs := fun (l : List ParamRec) => (l.map fun r => (recordBytes r.id r.vals).length).foldl (· + ·) 0
  ((i.params.map recs).getD 0) + ((i.pending.map fun p => recs p.1).getD 0)
  + (if i.counters.isSome then 40 * cellCount s + 32 else 0)
  + (if i.accounts.isSome then Config.stateItemBytes 0 else 0) + (if i.stepRs.isSome then Config.stateItemBytes 3 else 0)
  + (if i.bins.isSome then Config.stateItemBytes 4 else 0) + (if i.epoch.isSome then Config.stateItemBytes 5 else 0)
  + (if i.pack.isSome then Config.stateItemBytes 6 else 0) + (if i.order.isSome then Config.stateItemBytes 7 else 0)

/-- Bytes a group takes in each half, up to the next 16-byte boundary (Table 15-3). -/
def groupBytes (len : Nat) : Nat := (20 + len + 15) / 16 * 16

/-- The active region (R341). -/
def activeRegion (s : State) : JRegion := if s.nv.activeB then s.nv.regB else s.nv.regA

/-- Fill of a half, from offset 0 to the write position, in bytes (R344). -/
def regionFill (r : JRegion) : Nat := 256 + (r.groups.map fun g => groupBytes g.len).foldl (· + ·) 0

/-- Fill of the active half in per cent; 0 while the journal is empty (R329, R403). -/
def fillPercent (s : State) : Nat := if s.nv.empty then 0 else regionFill (activeRegion s) * 100 / 65536

/-- Whether the active half has room for a group of so many bytes of ITEMS (R351). -/
def hasRoom (s : State) (len : Nat) : Bool := s.nv.empty || decide (regionFill (activeRegion s) + groupBytes len ≤ 65536)

/-- Replaces the active region. -/
def setActive (r : JRegion) (s : State) : State :=
  if s.nv.activeB then { s with nv := { s.nv with regB := r } } else { s with nv := { s.nv with regA := r } }

/-- Compaction starts when the fill of the active half reaches its threshold (R344); one that a hold-up has abandoned starts again after it (Table
15-7). -/
def startCompaction (s : State) : State :=
  if s.nv.compact.isNone && !s.nv.empty && !s.sup.holdup && (s.nv.compactReq.isSome || decide (s.par 0x0900 ≤ (fillPercent s : Int))) then
    { s with nv := { s.nv with compact := some (1, s.nv.jseq) } }
  else s

/-- GEN of a group that is written now: the generation in force, or that of the newest group while the journal has not been replayed since a
reset (Table 15-3, R10). -/
def journalGen (s : State) : BitVec 32 :=
  if s.clk.replayed then s.cfg.gen else (((activeRegion s).groups.getLast?).map (·.gen)).getD 0

/-- Writes one group at the write position, both copies (R342); one that would pass the end of its half is refused whole, and nothing is written
(R338, R341). On an empty journal it makes region A active and writes a base (R403). -/
def writeGroup (kind : BitVec 8) (items : JItems) (s : State) : State :=
  let len := itemBytes s items
  if !hasRoom s len then s
  else if s.nv.empty then
    let g : JGroup := ⟨0x4, 0, len, journalGen s, true, true, items⟩
    { s with nv := { s.nv with regA := ⟨true, 0, true, [g]⟩, activeB := false, empty := false, jseq := 0 } }
  else
    let q := s.nv.jseq + 1
    let r := activeRegion s
    let s := setActive { r with groups := r.groups ++ [⟨kind, q, len, journalGen s, true, true, items⟩] } s
    startCompaction { s with nv := { s.nv with jseq := q } }

/-- The values of class MRAM as MRAM comes to hold them: retirements with their form, cause and mark, and TAP_OPEN (R90, Table 6-7). -/
def holdMram (s : State) : State := { s with nv := { s.nv with levels := s.lad.levels, tapOpen := s.meas.tapOpen } }

/-- They are written where a write may begin; otherwise they wait for the next write that may (R42). -/
def writeMram (s : State) : State := if canWrite s then holdMram s else s

/-- What of some items another group does not hold. -/
def JItems.less (a b : JItems) : JItems :=
  ⟨if b.params.isSome then none else a.params, if b.counters.isSome then none else a.counters, if b.accounts.isSome then none else a.accounts,
   if b.stepRs.isSome then none else a.stepRs, if b.bins.isSome then none else a.bins, if b.epoch.isSome then none else a.epoch,
   if b.pack.isSome then none else a.pack, if b.pending.isSome then none else a.pending, if b.order.isSome then none else a.order,
   if b.cut.isSome then none else a.cut⟩

/-- One journal commit, counted and timed (R342, counter 71); values of class MRAM that waited are written with it, and what it holds is owed
no longer. -/
def journalCommit (kind : BitVec 8) (items : JItems) (s : State) : State :=
  let s := writeGroup kind items (holdMram (histFree 4 (count 71 s)))
  { s with nv := { s.nv with owed := s.nv.owed.less items, writeUntil := s.clk.now } }

/-- The counters with their residues as a group carries them (R157): each cell's counts, S, B and the ring time. -/
def counterItems (s : State) : List (Nat × Nat) × Int × Int × Nat :=
  (s.chg.cells.map fun c => (c.qin, c.qout), s.chg.sNet, s.chg.bNet, stampRing s)

/-- The state items of a group over those of the groups before it. -/
def JItems.over (new old : JItems) : JItems :=
  ⟨new.params.or old.params, new.counters.or old.counters, new.accounts.or old.accounts, new.stepRs.or old.stepRs, new.bins.or old.bins, new.epoch.or old.epoch, new.pack.or old.pack,
   new.pending.or old.pending, new.order.or old.order, new.cut.or old.cut⟩

/-- A group may be written now: R42 and R286 hold, and the half has room (R338, R342). -/
def mayCommit (s : State) (items : JItems) : Bool := canWrite s && hasRoom s (itemBytes s items)

/-- A commit that no response waits for: its write goes on for as long as 10 MB/s takes, both copies (R338, R342). -/
def writeBehind (kind : BitVec 8) (items : JItems) (s : State) : State :=
  let t := s.clk.now + 200 * groupBytes (itemBytes s items)
  let s := journalCommit kind items s
  { s with nv := { s.nv with writeUntil := t } }

/-- Commits state items; where no commit may begin they wait for one that may (R42, R286, R342). -/
def commitItems (kind : BitVec 8) (items : JItems) (s : State) : State :=
  if mayCommit s items then writeBehind kind items s else { s with nv := { s.nv with owed := items.over s.nv.owed } }

/-- Commits the items that wait, once a commit may begin. -/
def payOwed (s : State) : State :=
  if s.nv.owed = JItems.reset ∨ mayCommit s s.nv.owed = false then s else writeBehind 0x1 s.nv.owed s

/-- The accounts as the journal holds them (R164). -/
def commitAccounts (s : State) : State := commitItems 0x1 { JItems.reset with accounts := some s.chg.cells } s

/-- What the groups of a region give together (R343). -/
def regionItems (r : JRegion) : JItems := r.groups.foldl (fun a g => JItems.over g.items a) JItems.reset

/-! Files and patch slots, byte by offset -/

/-- A store of bytes: addresses strictly rising, and no entry equal to what an unlisted address reads as. -/
abbrev Memory := List Host.Cell

/-- What a byte that nothing has written reads as (log entry 4). -/
def emptyByte : Byte := 0

/-- The canonical form. -/
def Memory.wf : Memory → Bool
  | [] => true
  | [c] => c.2 != emptyByte
  | c :: d :: m => c.2 != emptyByte && decide (c.1 < d.1) && Memory.wf (d :: m)

/-- The byte at an address. -/
def readByte (a : Nat) : Memory → Byte
  | [] => emptyByte
  | c :: m => if c.1 = a then c.2 else readByte a m

/-- Writes one byte; writing what an unlisted address reads as removes the entry. -/
def writeByte (a : Nat) (v : Byte) : Memory → Memory
  | [] => if v = emptyByte then [] else [(a, v)]
  | c :: m =>
    if c.1 < a then c :: writeByte a v m
    else if c.1 = a then (if v = emptyByte then m else (a, v) :: m)
    else if v = emptyByte then c :: m else (a, v) :: c :: m

/-- Writes bytes at rising addresses. -/
def writeBytes (a : Nat) : List Byte → Memory → Memory
  | [], m => m
  | b :: bs, m => writeBytes (a + 1) bs (writeByte a b m)

/-- n bytes from an address. -/
def readBytes (a n : Nat) (m : Memory) : List Byte := (List.range n).map fun i => readByte (a + i) m

/-- A little-endian field of a file. -/
def fileField (m : Memory) (a n : Nat) : Nat := leNat (readBytes a n m)

/-! Mailboxes (13) -/

/-- The number of a mailbox in the order of R359. -/
def Mailbox.idx : Mailbox → Nat
  | .host => 0 | .ring => 1 | .uart => 2 | .twb => 3

/-- The code of a level (R305). -/
def Access.code : Access → Nat
  | .monitor => 1 | .operator => 2 | .service => 3 | .maker => 4

/-- The level of a code. -/
def accessOf (n : Nat) : Option Access :=
  if n = 1 then some .monitor else if n = 2 then some .operator else if n = 3 then some .service
  else if n = 4 then some .maker else none

/-- The state of a mailbox. -/
def mail (s : State) (mb : Mailbox) : MailS := s.host.mail.getD (Mailbox.idx mb) MailS.reset

/-- The session level of a mailbox, as a code: that of its session; the ring mailbox takes a claim that the rack key authenticates, up
to Service (R305, R327); host SPI and service UART stand at Service in Blank and Factory, and in Provisioned without a Service
credential; Retired knows Monitor alone (Table 16-2). -/
def sessionCode (s : State) (mb : Mailbox) : Nat :=
  let own := Access.code (mail s mb).level
  let open3 := s.key.life == .blank || s.key.life == .factory || (s.key.life == .provisioned && s.key.svCred.isNone)
  if s.key.life = .retired then 1 else if mb = .ring then 3 else if open3 && (mb == .host || mb == .uart) then max 3 own else own

/-- Replaces the state of a mailbox. -/
def modMail (mb : Mailbox) (f : MailS → MailS) (s : State) : State :=
  { s with host := { s.host with mail := s.host.mail.modify (Mailbox.idx mb) f } }

/-- Replaces the state of every mailbox. -/
def mapMail (f : MailS → MailS) (s : State) : State := { s with host := { s.host with mail := s.host.mail.map f } }

/-- The staged set of a mailbox whose session level has fallen below Service is discarded (R320). -/
def endStaged (s : State) : State :=
  [Mailbox.host, .ring, .uart, .twb].foldl
    (fun st mb => if sessionCode st mb < 3 then modMail mb (fun m => { m with staged := [] }) st else st) s

/-- Pushes a response when space exists; otherwise it is held (R303). -/
def pushEntry (mb : Mailbox) (e : Entry) (s : State) : State :=
  modMail mb (fun m => if m.rspQ.length < 8 ∧ m.held = [] then { m with rspQ := m.rspQ ++ [e] } else { m with held := m.held ++ [e] }) s

/-- A response entry: FLAGS has RSP, and FINAL in the last one (Table 13-8); payload byte 0 is the status, byte 1 reserved. -/
def response (req : Req) (op : Nat) (final : Bool) (status : Byte) (fields : List Byte) : Entry :=
  ⟨BitVec.ofNat 16 op, req.tag, if final then 0xC0 else 0x80, BitVec.ofNat 8 (Access.code req.level), status :: 0 :: fields⟩

/-- Pushes the first and final response of a command. -/
def answer (req : Req) (op : Nat) (status : Byte) (fields : List Byte) (s : State) : State :=
  histFree 0 (pushEntry req.mb (response req op true status fields) s)

/-- Answers ACCEPTED or POSTPONED and lists the command as running (R308). -/
def accept (req : Req) (op : Nat) (status : Byte) (args : List Byte) (s : State) : State :=
  let s := pushEntry req.mb (response req op false status []) s
  { s with host := { s.host with running := s.host.running ++ [⟨req, BitVec.ofNat 16 op, args, 0, [], false, s.clk.now⟩] } }

/-- A running command's work is done: FINAL_RESPONSE may push its final response (R308). -/
def finish (req : Req) (status : Byte) (fields : List Byte) (s : State) : State :=
  { s with host := { s.host with running := s.host.running.map fun r =>
      if r.req = req ∧ r.done = false then { r with status := status, reply := fields, done := true } else r } }

/-- Ends the running command of a request that may wait. -/
def finishOpt (req : Option Req) (status : Byte) (fields : List Byte) (s : State) : State :=
  match req with
  | some r => finish r status fields s
  | none => s

/-- A REFUSED answer is given 200 us after the pop, in the same time whatever the cause, which the secure partition keeps (R313, R361,
R362). -/
def refuse (req : Req) (op : Nat) (why : RefusalCause) (s : State) : State :=
  modMail req.mb (fun m => { m with refusal := some (req, BitVec.ofNat 16 op, s.clk.now), cause := some why, busy := true }) s

/-- The TAG is that of a request of this mailbox still awaiting its final response (Table 13-9). -/
def tagInUse (req : Req) (s : State) : Bool :=
  s.host.running.any (fun r => r.req.mb == req.mb && r.req.tag == req.tag)
  || ((mail s req.mb).refusal.any fun p => p.1.tag == req.tag) || s.lad.parkTag.any fun r => r.mb == req.mb && r.tag == req.tag

/-- Where a command runs (R312, R314, R315): its lowest level, whether it is answered BAD_STATE in Watch, whether it runs on
the Wellhead only, and whether its NV condition is judged before it runs. -/
structure Rules where
  least  : Access
  watch  : Bool
  leader : Bool
  nv     : Bool
  deriving DecidableEq, Repr

/-- A command that runs anywhere from a level. -/
def Rules.atLevel (a : Access) : Rules := ⟨a, false, false, false⟩

/-- The checks that every command shares, in the order of Table 13-9 (R307, R312, R314, R315), then its own body, which
answers for itself. length: its variable field lies within its bounds (R311); reserved: its reserved fields are zero (R9). -/
def runChecked (req : Req) (op : Nat) (r : Rules) (length reserved : Bool) (body : State → State) (s : State) : State :=
  if length = false then answer req op 0x10 [] s
  else if sessionCode s req.mb < Access.code req.level ∨ Access.code req.level < Access.code r.least then refuse req op .level s
  else if tagInUse req s ∨ reserved = false then answer req op 0x11 [] s
  else if s.flt.safe ∧ r.least ≠ .monitor then answer req op 0x12 [] s
  else if s.clk.pstate = .watch ∧ r.watch then answer req op 0x12 [] s
  else if r.leader ∧ s.rack.wellhead = false then
    answer req op 0x40 [if s.rack.everObeyed then BitVec.ofNat 8 s.rack.leader else 0] s
  else if r.nv ∧ (nvRefusal s).isSome then answer req op ((nvRefusal s).getD 0x30) [] (journalRefused (count 73 s))
  else body s

/-- A command of fixed length with no reserved field. -/
def runCommand (req : Req) (op : Nat) (r : Rules) (body : State → State) (s : State) : State := runChecked req op r true true body s

/-- The answer OK with fields read from the state. -/
def reply (req : Req) (op : Nat) (fields : State → List Byte) (s : State) : State := answer req op 0x00 (fields s) s

/-- The shelf is admitted: the ramp runs or is complete (Table 4-7). -/
def isAdmitted (s : State) : Bool := s.lad.adm == .ramp || s.lad.adm == .admitted

/-- A pre-start check runs: of an admission or of LADDER_CHECK. -/
def checkRuns (s : State) : Bool := s.lad.adm == .checking || s.lad.checkReq.isSome

end Sys2Proof.Machine
end

