-- ==== Sys2Proof/Machine/Flags.lean ====
section
/-! DEFINITION. Every status word, and the values that reports form: cell voltages for the allocation, limits, I(lim), the shelf's
range of contribution, energies and the shelf-thermal limit. -/

namespace Sys2Proof.Machine

/-! Cells -/

/-- The NTC input assigned to a point, if any (Table 14-15). -/
def ntcAt (s : State) (point : Int) : Option Nat := (List.range 24).find? fun j => s.par (0x0411 + j) == point

/-- The record of an NTC input. -/
def ntcRec (s : State) (j : Nat) : Ntc := s.meas.ntc.getD j Ntc.reset

/-- An NTC input is in use: assigned to a point, and not to the cell of an absent level (R15, Table 1-2). -/
def ntcUsed (s : State) (j : Nat) : Bool :=
  let p := s.par (0x0411 + j)
  p != 0 && (decide (16 < p) || present s (p.toNat - 1))

/-- The NTC record of cell k + 1, if an input is assigned. -/
def cellNtc (s : State) (k : Nat) : Option Ntc := (ntcAt s ((k : Int) + 1)).map (ntcRec s)

/-- A temperature before the first valid reading of an input: not stated (log entry 2). -/
def tempUnread : Rat := Config.freeRat 0

/-- The last valid temperature of cell k + 1 (R198). -/
def cellTemp (s : State) (k : Nat) : Rat := ((cellNtc s k).bind (·.temp)).getD tempUnread

/-- The temperature of a point: 0x11 shunt, 0x12 heatsink, 0x14 coolant (Table 14-15). -/
def pointTemp (s : State) (point : Int) : Rat := (((ntcAt s point).map (ntcRec s)).bind (·.temp)).getD tempUnread

/-- A point whose input is faulted, or that has none, is removed from the inputs that use it (R141). -/
def pointLost (s : State) (point : Int) : Bool := ((ntcAt s point).map fun j => (ntcRec s j).faulted).getD true

/-- The step-resistance record of a cell (R132, R133). -/
def stepRec (s : State) (k : Nat) : StepSample := s.meas.steps.getD k StepSample.reset

/-- The string current in A, positive in discharge (R134, R137). -/
def stringA (s : State) : Rat := if s.meas.shuntFail then s.meas.hallA else s.meas.current

/-- The string current as the shelf reports it: while the shelf bypass switch is closed no string current passes its sensors, and the report comes
from the ring (R17, log entry 145). -/
def reportedA (s : State) : Rat := if s.lad.sby then Config.ringCurrent s.clk.now else stringA s

/-- The voltage v(k) that the allocation uses; none for a level that has had no usable sample (R132). -/
def allocV (s : State) (k : Nat) : Option Rat :=
  let r := stepRec s k
  match r.vIns, r.vByp with
  | some a, none => some a.1
  | none, some b => some (b.1 - stringA s * r.rStep / 1000)
  | none, none => none
  | some a, some b =>
    if s.clk.ring ≤ a.2 + ms 1 ∨ b.2 ≤ a.2 then some a.1 else some (b.1 - stringA s * r.rStep / 1000)

/-- The last usable sample of a cell as taken, whichever INS it carries (R131, R132). -/
def lastUsable (s : State) (k : Nat) : Option Rat :=
  let r := stepRec s k
  match r.vIns, r.vByp with
  | some a, some b => some (if b.2 ≤ a.2 then a.1 else b.1)
  | a, b => (a.or b).map (·.1)

/-- v(k), 0 where there is none. -/
def cellV (s : State) (k : Nat) : Rat := (allocV s k).getD 0

/-- The account of a cell. -/
def acc (s : State) (k : Nat) : CellAcc := s.chg.cells.getD k CellAcc.reset

/-- Nominal capacity in Ah (Table 7-6). -/
def nominalAh (s : State) : Rat := (s.parN 0x050B : Rat) / 1000

/-! Engine limits (R185, R187, R188, R198) -/

/-- The active model file's field (Table 8-3). -/
def modelField (s : State) (o n : Nat) : Nat := fileField s.nv.fileActive o n

/-- FILE_MISMATCH (R177). -/
def fileMismatch (s : State) : Bool :=
  let nom := modelField s 20 4
  let cap := s.parN 0x050B
  decide (10 * nom > 11 * cap ∨ 10 * nom < 9 * cap)
  || decide (modelField s 24 2 + 100 < 5 * s.parN 0x0303)
  || decide (modelField s 26 2 > 5 * s.parN 0x0304 + 100)

/-- The tile that serves a cell, if any (R172, R197). -/
def tileOf (s : State) (k : Nat) : Option Nat :=
  (List.range 16).find? fun t => (s.eng.tiles.getD t Tile.reset).cell.any (fun c => c.val == k) && !(s.eng.tiles.getD t Tile.reset).fault

/-- The record of the tile that serves a cell. -/
def tileRec (s : State) (k : Nat) : Tile := ((tileOf s k).map fun t => s.eng.tiles.getD t Tile.reset).getD Tile.reset

/-- Mode off, or no model file active (R199). -/
def engineOff (s : State) : Bool := s.par 0x0600 == 0 || s.par 0x060E == 0

/-- The engine steps this cell (Table 8-9 ENG_ON). -/
def engineOn (s : State) (k : Nat) : Bool :=
  !engineOff s && s.clk.pstate == .run && s.eng.throttle != 3 && !s.eng.stopped && !s.eng.gated && (tileOf s k).isSome && present s k

/-- The cell is on fallback limits (R198). -/
def onFallback (s : State) (k : Nat) : Bool :=
  !engineOn s k || (tileRec s k).warmup || (tileRec s k).collapse || fileMismatch s || !(tileRec s k).front.ready
  || s.nv.badPages.any fun p => decide (0x1000 ≤ p ∧ p < 0x1400)

/-- Interpolates a table of points, held at its ends (R198). -/
def interp : List (Rat × Rat) → Rat → Rat
  | [], _ => 0
  | [p], _ => p.2
  | p :: q :: l, x =>
    if x ≤ p.1 then p.2 else if x ≤ q.1 then p.2 + (x - p.1) * (q.2 - p.2) / (q.1 - p.1) else interp (q :: l) x

/-- The fallback limit of a cell in A (R198, Table 8-8). -/
def fallbackLimit (s : State) (k : Nat) (charge : Bool) : Rat :=
  let pts : List (Rat × Rat) :=
    if charge then [(0, 0x0610), (10, 0x0611), (25, 0x0612), (45, 0x0613), (55, 0x0614)]
    else [(-20, 0x0618), (0, 0x0619), (25, 0x061A), (45, 0x061B), (60, 0x061C)]
  interp (pts.map fun p => (p.1, (s.par p.2.floor.toNat : Rat) / 100)) (cellTemp s k) * nominalAh s

/-- The limit in use in one direction, engine or fallback, bounded by the temperature windows and a faulted input (R188, R198,
R284). -/
def limitInUse (s : State) (k : Nat) (charge : Bool) : Rat :=
  let n := (cellNtc s k).getD Ntc.reset
  if n.faulted || (if charge then n.outCh else n.outDis) then 0
  else if onFallback s k then fallbackLimit s k charge
  else if charge then (tileRec s k).front.limCh else (tileRec s k).front.limDis

/-- L(k): the limit in use and the taper limit of an anchor in progress (Table 5-1, R160, R161). -/
def cellLimit (s : State) (k : Nat) (charge : Bool) : Rat :=
  let a := acc s k
  let lim := limitInUse s k charge
  match a.taper with
  | some t => if (a.running == .full && charge) || (a.running == .empty && !charge) then minRat lim t else lim
  | none => lim

/-- L(k) as latched at the frame boundary, in the present direction (R116, R402). -/
def latchedLimit (s : State) (k : Nat) : Rat := if s.mod.charge then s.mod.limCh.getD k 0 else s.mod.limDis.getD k 0

/-! The shelf's contribution -/

/-- V(lo,s): the sum of the stuck-in cells (R90). -/
def vLow (s : State) : Rat := sumRat ((stuckLevels s).map (cellV s))

/-- V(hi,s): the sum of all cells that are neither retired bypassed nor parked (R90). -/
def vHigh (s : State) : Rat := vLow s + sumRat ((availableLevels s).map (cellV s))

/-- The set value that the ramp goes to: the command within the shelf's range. -/
def rampGoal (s : State) : Rat := clampRat s.mod.vcmd (vLow s) (vHigh s)

/-- The largest rise of one step: the lowest cell voltage of the available levels (R93). -/
def rampRise (s : State) : Rat :=
  match (availableLevels s).map (cellV s) with
  | [] => 0
  | x :: xs => xs.foldl minRat x

/-- The ramp's present set value: within a ramp step it rises evenly, which the trim level makes good, by the rise of that step (R93). -/
def rampNow (s : State) : Rat :=
  let step := us (s.parN 0x0309)
  let gone := s.clk.now + step - s.lad.rampNext
  minRat (rampGoal s) (s.lad.rampV + rampRise s * clampRat ((gone : Rat) / (max 1 step : Nat)) 0 1)

/-- V(cmd) as the scheduler and I(lim) use it: the ramp's set value during the start ramp (R126). -/
def commandV (s : State) : Rat := if s.lad.adm == .ramp then rampNow s else s.mod.vcmd

/-- The sum of R125 at string current i of more than 0. -/
def limitedSum (s : State) (lims : List (Rat × Rat)) (i : Rat) : Rat :=
  vLow s + sumRat (lims.map fun p => if i ≤ p.1 then p.2 else p.1 / i * p.2)

/-- The current at which the limited sum equals V(cmd), tried over the segments between the limits: within a segment the sum
is c + b / i. -/
def limSearch (stuck vcmd : Rat) (lims : List (Rat × Rat)) : List Rat → Rat → Option Rat
  | [], best => if best = 0 then none else some best
  | l :: ls, best =>
    let full := sumRat ((lims.filter fun p => l < p.1).map (·.2))
    let b := sumRat ((lims.filter fun p => p.1 ≤ l).map fun p => p.1 * p.2)
    let c := vcmd - stuck - full
    let i := if c ≤ 0 then 0 else b / c
    let hit := decide (l ≤ i) && ((lims.filter fun p => l < p.1).all fun p => decide (i ≤ p.1))
    limSearch stuck vcmd lims ls (if hit then maxRat best i else best)

/-- I(lim) in A: the greatest string current at which the limited sum equals V(cmd), 0 where no current meets the equation
(R125, log entry 11). -/
def iLim (s : State) : Rat :=
  let lims := (availableLevels s).map fun k => (latchedLimit s k, cellV s k)
  (limSearch (vLow s) (commandV s) lims (0 :: lims.map (·.1)) 0).getD 0

/-- The mean state of charge over the anchored available cells; 50 % when none is anchored (R159). -/
def meanSoc (s : State) : Rat :=
  let l := (availableLevels s).filterMap fun k => (acc s k).soc
  if l.isEmpty then 50 else sumRat l / (l.length : Rat)

/-- Energy in kWh: EDIS in discharge, ECH in charge (R204, Table 9-3). -/
def energy (s : State) (charge : Bool) : Rat :=
  sumRat ((availableLevels s).map fun k =>
    let soc := clampRat ((acc s k).soc.getD (meanSoc s)) 0 100
    (if charge then 100 - soc else soc) / 100 * (acc s k).cap / 1000 * s.meas.mean1s.getD k 0 / 1000)

/-! The trim carrier (R109, R113) -/

/-- The ring time of a cycle count, rounded up. -/
def timeOfCycle (c : Nat) : Nat := (c * 5 + 15) / 16

/-- The first carrier peak at or after a cycle count: peaks lie half a period from the valleys (R109). -/
def peakFrom (s : State) (phase c : Nat) : Nat :=
  instantFrom (carrierCycles s) ((phase + carrierCycles s / 2) % carrierCycles s) c

/-- The carrier is on its way to a new phase: with the shelf bypass switch open (R113). -/
def phaseMoving (s : State) : Bool := !s.lad.sby && s.mod.phase.any (· != s.mod.phaseGoal)

/-- PHASE_SLEW is set once a move has begun, and stands for the rest of the period in which it ends (R113, R128). -/
def slewFlag (s : State) : State := { s with mod := { s.mod with phaseSlew := s.mod.phaseSlew || phaseMoving s } }

/-- Upper edges of the switch resistance bins in % of shunt full scale (Table 6-5). -/
def binEdges : List Rat := [4, 8, 16, 32, 48, 64, 80, 100]

/-- Shunt full scale in A: 62.5 mV at R(shunt, 25 degC) (R134). -/
def shuntFull (s : State) : Rat := 6250000 / (s.parN 0x0403 : Rat)

/-- The bin that contains a current magnitude. -/
def binFor (s : State) (i : Rat) : Nat := ((binEdges.findIdx? fun e => decide (i ≤ e / 100 * shuntFull s)).getD 7)

/-- A bin is current: the last 256 readings lie within the refresh age (R145), which counts in ring time (log entry 53). -/
def binCurrent (s : State) (b : Bin) : Bool := b.stamps[255]?.any fun t => decide (s.clk.ring ≤ t + sec (86400 * s.parN 0x0409))

/-- A switch's resistance in micro-ohm and whether it is extrapolated: from the bin that contains the current, else the nearest
current bin below, else the initial value (R146). -/
def switchR (s : State) (bins : List Bin) (i : Rat) : Rat × Bool :=
  let b := binFor s i
  match ((List.range (b + 1)).reverse.find? fun j => binCurrent s (bins.getD j Bin.reset)) with
  | some j => ((bins.getD j Bin.reset).ohm, j != b)
  | none => ((s.parN 0x0408 : Rat) * 10, true)

/-- The instant lies within the trim pulse: within half its width of a valley (R110). -/
def inPulse (s : State) : Bool :=
  let p := carrierCycles s
  let d := (s.clk.ring * 16 / 5 + p - s.mod.phase.getD 0 % p) % p
  decide (2 * min d (p - d) < s.mod.pulse)

/-- The insert switch of a level conducts: in the inserted state, within a trim pulse, and in the stuck-in form (Table 4-1, Table 4-6). -/
def insertConducts (s : State) (k : Nat) : Bool :=
  let l := lvl s k
  l.st == .inserted || l.isStuckIn || (l.st == .trim && inPulse s)

/-- The resistance of the conducting switch of each present level; a level in trim uses both of its switches, each for its part of the carrier
period (R146, R212). -/
def conducting (s : State) : List (Rat × Bool) :=
  (presentLevels s).map fun k =>
    let i := absRat (stringA s)
    let a := switchR s (s.meas.binIn.getD k []) i
    let b := switchR s (s.meas.binBy.getD k []) i
    if (lvl s k).st == .trim then (s.mod.latched * a.1 + (1 - s.mod.latched) * b.1, a.2 || b.2)
    else if insertConducts s k then a
    else b

/-- EXTRAP: the resistance of a switch in use is extrapolated (R146). -/
def extrap (s : State) : Bool := (conducting s).any (·.2)

/-- The shelf-thermal limit in A; none with no present level (R212). With NTC18 faulted it is not derated (DESIGN CHOICE, log entry 205). -/
def thermalLimit (s : State) : Option Rat :=
  let r := sumRat ((conducting s).map (·.1))
  if r ≤ 0 then none
  else
    let isw := sqrtMilli ((s.parN 0x070C : Rat) * 1000000 / r) * (if extrap s then 95 / 100 else 1)
    let ta : Rat := s.par 0x070D
    let tb : Rat := s.par2 0x070D
    some (isw * (if pointLost s 0x12 then 1 else clampRat ((tb - pointTemp s 0x12) / (tb - ta)) 0 1))

/-- The lowest L(k) of the stuck-in cells in the present direction; none without one (R89, Table 9-3). -/
def stuckLimit (s : State) : Option Rat :=
  match (stuckLevels s).map (latchedLimit s) with
  | [] => none
  | x :: xs => some (xs.foldl minRat x)

/-! Status words -/

/-- STATE codes of Table 4-2. -/
def LevelSt.code : LevelSt → Nat
  | .bypassed => 1 | .inserted => 2 | .trim => 3 | .parked => 4 | .retired => 5

/-- The level status word (Table 4-2); an absent level reads STATE 0. -/
def levelWord (s : State) (k : Nat) : Nat :=
  if !present s k then 0
  else
    let l := lvl s k
    l.st.code * 2 ^ 13 + bit l.stuckIn 12 + l.cause.toNat * 2 ^ 8 + l.check.toNat * 2 ^ 5 + bit l.frozen 4 + bit l.bsOk 3

/-- The modulation status word (Table 5-3). -/
def modWord (s : State) : Nat :=
  let m := s.mod
  bit m.voltSat 15 + bit m.limitSat 14 + bit m.budgetSat 13 + bit m.hold 12 + bit m.holdExp 11 + bit m.intLim 10
  + bit m.pulseSkip 9 + bit m.phaseSlew 8 + ((m.trim.map fun k => k.val + 1).getD 0)

/-- The cell sample word of level k + 1 (Table 6-1). -/
def sampleWord (w : CellWord) (k : Nat) : Nat :=
  w.value.toNat * 2 ^ 14 + bit w.ins 13 + bit w.blank 12 + bit w.owt 11 + bit w.clip 10 + bit w.zero 9 + (k + 1)

/-- The current sample word (Table 6-3). -/
def currentWord (s : State) : Nat :=
  let m := s.meas
  m.curWord.toNat * 2 ^ 8 + bit m.lowRange 7 + bit m.held 6 + bit (m.shuntFail || m.src) 5 + bit m.clip 4 + bit m.disagree 3 + bit s.lad.sby 2

/-- NTC_FAULT: an input in use stands faulted (Table 6-7). -/
def ntcFault (s : State) : Bool := (List.range 24).any fun j => (ntcRec s j).faulted && ntcUsed s j

/-- The sense status word (Table 6-7). -/
def senseWord (s : State) : Nat :=
  let m := s.meas
  bit m.sumFail 31 + bit m.disagree 30 + bit m.shuntFail 29 + bit m.hallFail 28 + bit (ntcFault s) 27 + bit m.compBad.isSome 26
  + bit (extrap s) 25 + bit (!m.suspects.isEmpty) 24 + m.tapOpen.toNat

/-- The most recent anchor of a cell is older than the stale age (R159). -/
def socStale (s : State) (a : CellAcc) : Bool :=
  let t := max (if a.full.valid then a.full.time else 0) (if a.empty.valid then a.empty.time else 0)
  (a.full.valid || a.empty.valid) && decide (t + 86400 * s.parN 0x050D * sec 1 < s.clk.ring)

/-- ANCHOR of Table 7-5; a provisional completion is shown before a running anchor (DESIGN CHOICE, log entry 164). -/
def anchorCode (a : CellAcc) : Nat :=
  if a.provisional.isSome then 3 else match a.running with | .none => 0 | .full => 1 | .empty => 2

/-- The account status word of a cell (Table 7-5). -/
def accountWord (s : State) (k : Nat) : Nat :=
  let a := acc s k
  bit a.full.valid 15 + bit a.empty.valid 14 + bit a.capLearned 13 + bit (socStale s a) 12 + anchorCode a * 2 ^ 10 + bit a.spanOpen 9
  + a.dqCause.toNat * 2 ^ 6 + bit s.chg.sat 5 + bit s.chg.holdupCut 4 + bit s.chg.clkRc 3 + bit s.meas.shuntFail 2
  + bit s.chg.tokenLost 1

/-- Impedance windows accumulate: the function is on, the current is at least 5 A, and the engine steps (R192). -/
def impActive (s : State) (k : Nat) : Bool := engineOn s k && s.par 0x0609 == 1 && decide (5 ≤ absRat (stringA s))

/-- Dither is applied to cell k + 1: the impedance function is on, the current is at least 5 A, and the cell takes h(k) (R192, R198). -/
def ditherOn (s : State) (k : Nat) : Bool := impActive s k && s.par 0x060A != 0 && available s k && !onFallback s k

/-- The engine status word of a cell (Table 8-9, R199). -/
def engineWord (s : State) (k : Nat) : Nat :=
  let t := tileRec s k
  let own := s.eng.tiles.getD k Tile.reset
  let on := !engineOff s
  bit (engineOn s k) 15 + bit (on && t.warmup) 14 + bit (onFallback s k) 13 + bit (s.eng.throttle == 1 || s.eng.throttle == 2) 12
    + s.eng.throttle.val * 2 ^ 10 + bit own.fault 9 + bit ((tileOf s k).any (· != k)) 8 + bit (on && s.par 0x0600 == 1) 7
    + bit (s.eng.overrunAt.any fun a => decide (s.clk.now < a + sec 1)) 6 + bit t.collapse 5 + bit (impActive s k) 4
    + bit (ditherOn s k) 3 + bit (s.par 0x060E != 0 && fileMismatch s) 2

/-- A distance through a port: the DIST received plus 1, 0xFF where none (R244). -/
def distVia (p : PortS) : Nat := if p.state != .up || p.dist.toNat ≥ 254 then 255 else p.dist.toNat + 1

/-- STATE codes of Table 10-9. -/
def PortState.code : PortState → Nat
  | .down => 0 | .training => 1 | .up => 2

/-- The ring status word (Table 10-9). -/
def ringWord (s : State) : Nat :=
  let a := distVia s.ring.lka
  let b := distVia s.ring.lkb
  let m := s.rack.wellhead
  s.ring.lka.state.code * 2 ^ 14 + s.ring.lkb.state.code * 2 ^ 12 + bit (s.ring.source == .lkb) 11 + bit m 10
  + bit (s.clk.timeState == .holdover) 9 + bit (!m && (a == 255) != (b == 255)) 8 + (if m then 0 else min a b)

/-- STATE codes of Table 11-8. -/
def RailState.code : RailState → Nat
  | .off => 0 | .checking => 1 | .softStart => 2 | .regulating => 3 | .latchedOff => 4 | .shuttingDown => 5 | .burst => 6

/-- The rail status word (Table 11-8); RETRY counts the automatic clears of the last 10 s. -/
def railWord (s : State) (x : Nat) : Nat :=
  let r := s.aux.rails.getD x Rail.reset
  let n := min 3 (r.clears.filter fun t => decide (s.clk.now < t + sec 10)).length
  r.st.code * 2 ^ 13 + bit r.pg 12 + bit r.sync 11 + bit r.slew 10 + bit r.dropout 9 + bit r.freqCap 8 + r.cause.toNat * 2 ^ 4 + n * 4

/-- STATE codes of Table 11-9. -/
def EfuseState.code : EfuseState → Nat
  | .off => 0 | .preCheck => 1 | .ramping => 2 | .on => 3 | .limiting => 4 | .tripped => 5 | .damaged => 6

/-- The eFuse status word of channel x + 1 (Table 11-9). -/
def fuseWord (s : State) (x : Nat) : Nat :=
  let f := s.aux.fuses.getD x Efuse.reset
  f.st.code * 2 ^ 13 + bit f.pg 12 + f.cause.toNat * 2 ^ 8 + bit f.permit 7 + bit (s.par (0x0848 + 0x10 * x) == 1) 6

/-- Some source is severe (R289). -/
def anySevere (s : State) : Bool := s.flt.sources.any (·.severe)

/-- FSTAT as it reads: SEVERE and INJECT are formed, the rest is as latched (Table 12-3). -/
def fstatWord (s : State) : BitVec 32 :=
  (s.flt.fstat &&& 0xBFFFFFF8#32) ||| BitVec.ofNat 32 (bit (anySevere s) 30 + bit (!s.flt.injections.isEmpty) 2)

/-- The shelf is configured: its cell count is set and PLANT and SHELF are assigned (R5, R14). -/
def configured (s : State) : Bool := cellCount s != 0 && located s

/-- PSTATE codes of Table 13-4. -/
def PState.code : PState → Nat
  | .off => 0 | .still => 0 | .watch => 1 | .run => 2

/-- LIFECYCLE codes of Table 13-4. -/
def LifeCycle.code : LifeCycle → Nat
  | .blank => 0 | .factory => 1 | .provisioned => 2 | .fielded => 3 | .returned => 4 | .retired => 5

/-- READY: not-ready is clear and requests are accepted (Table 13-4): the shelf is configured (R5, R14), no start abort stands (R94), and
its life-cycle state is not one that Table 16-2 calls not-ready. -/
def hostReady (s : State) : Bool :=
  !s.clk.notReady && s.clk.inReset == none && configured s && !s.lad.startAbort && s.key.life != .blank && s.key.life != .returned

/-- READY_CHG of every mailbox when READY has changed from what it was (Table 13-4). -/
def noteReady (was : Bool) (s : State) : State :=
  if hostReady s = was then s else mapMail (fun m => { m with readyChg := true }) s

/-- The HID word (Table 13-3). -/
def hidWord (s : State) : BitVec 32 := 0x71620300#32 ||| s.upd.patch.setWidth 32

/-- HSTAT as a mailbox reads it (Table 13-4, R386). -/
def hstatOf (mb : Mailbox) (s : State) : BitVec 32 :=
  let m := mail s mb
  BitVec.ofNat 32
    (bit (hostReady s) 31 + bit m.resetSeen 30 + bit m.readyChg 29 + bit m.reqOvf 28 + bit m.winErr 27 + bit (m.busy || s.lad.parkTag.any (·.mb == mb)) 26
     + bit s.flt.safe 25 + s.sup.band.toNat * 2 ^ 22 + s.clk.pstate.code * 2 ^ 20 + s.key.life.code * 2 ^ 17
     + sessionCode s mb * 2 ^ 14 + (8 - m.reqQ.length) * 2 ^ 8 + m.rspQ.length * 2 ^ 4)

/-- The control die is held in reset: for 20 us after a reset of its processors, until its rails are good after a brown-out or a power-on
reset, and while RST_N is held low from outside (R74, R309). -/
def inHold (s : State) : Bool :=
  match s.clk.inReset with
  | none => false
  | some k => s.clk.rstExt || (if k = .controller ∨ k = .activate then decide (s.clk.now < s.clk.resetAt + us 20) else !s.clk.railsGood)

/-- HIRQ_N is low: an enabled condition of Table 13-5 holds, or the control die is held in reset (R301). -/
def hirqLow (s : State) : Bool :=
  let m := mail s .host
  let e := s.host.irqEn
  inHold s || (e.getLsbD 3 && m.readyChg) || (e.getLsbD 2 && fstatWord s != 0) || (e.getLsbD 1 && m.resetSeen)
  || (e.getLsbD 0 && !m.rspQ.isEmpty)

/-- The debug status word (Table 18-5). -/
def debugWord (s : State) : BitVec 32 :=
  BitVec.ofNat 32 (bit s.dbg.haltedCp 31 + bit s.dbg.haltedLp 30 + bit s.dbg.pend.isSome 29 + s.dbg.lock.toNat * 2 ^ 27
    + bit s.dbg.forced 26)

/-- CFEED: channel 5 is on as a contactor feed (Table 9-4). -/
def contactorFeed (s : State) : Bool :=
  let f := s.aux.fuses.getD 4 Efuse.reset
  f.isOn && s.par 0x030B == 0

/-- Ring time is being removed an error above 20 ns (R67). -/
def settling (s : State) : Bool := decide (20 * 256 < s.clk.phaseErr.natAbs)

/-- The shelf holds a Wellhead checkpoint less than 200 ms old (Table 9-4). -/
def holdsCkpt (s : State) : Bool := s.rack.ckpt.isSome && decide (s.clk.now < s.rack.ckptRecv + ms 200)

/-- READY of SFLAGS: configured and not-ready clear, and no start abort stands (Table 9-4, R94). -/
def shelfReady (s : State) : Bool :=
  configured s && !s.clk.notReady && !s.lad.startAbort && s.key.life != .blank && s.key.life != .returned && s.key.life != .retired

/-- SFLAGS (Table 9-4). -/
def sflagsWord (s : State) (page : Bool) : Nat :=
  bit (shelfReady s) 15 + bit (s.lad.adm == .admitted) 14 + bit s.lad.sby 13 + bit s.lad.oos 12 + bit s.sup.holdup 11
  + bit (settling s) 10 + bit (s.clk.timeState == .lost) 9 + bit s.lad.startAbort 8 + bit s.cfg.hasPending 7 + bit s.mod.charge 6
  + bit (holdsCkpt s) 5 + bit page 4 + bit (!(stuckLevels s).isEmpty) 3 + bit (contactorFeed s) 2

/-- NOTREADY of SYS_INFO (Table 14-1). -/
def notReadyBits (s : State) : Nat :=
  bit (cellCount s == 0) 0 + bit (!located s) 1 + bit (!energyOk s) 2 + bit (!s.clk.authDone) 3 + bit s.lad.oos 4
  + bit s.lad.startAbort 5

/-- The STATUS body of a page (Table 9-3). -/
def statusBody (s : State) (page : Bool) : List Byte :=
  let lim := roundRat (iLim s * 10)
  leBytes 1 (position s) ++ leBytes 2 (sflagsWord s page) ++ leBytes 1 (modWord s / 256)
  ++ leBytes 2 (if 65534 < lim then 0xFFFF else lim.toNat) ++ leBytes 2 (s.rack.obeyed.toNat % 65536)
  ++ (if page then
        leBytes 2 (reportNat 16 (vLow s * 100)) ++ leBytes 2 (reportNat 16 (vHigh s * 100))
        ++ leBytes 2 (reportNat 16 (energy s false * 100)) ++ leBytes 2 (reportNat 16 (energy s true * 100))
        ++ leBytes 2 (((thermalLimit s).map fun i => min 65534 (reportNat 16 (i * 10))).getD 0xFFFF)
        ++ leBytes 2 (((stuckLimit s).map fun i => min 65534 (reportNat 16 (i * 10))).getD 0xFFFF)
      else bvBytes 4 s.cfg.gen ++ digestOf s.cfg.params)

end Sys2Proof.Machine
end

