-- ==== Sys2Proof/Machine/Frames.lean ====
section
/-! DEFINITION. Frames and messages: sealing, sending, STATUS, the shares, the succession list, checkpoints and handover. -/

namespace Sys2Proof.Machine

/-! Frames (R231 to R234) -/

/-- The state of a port. -/
def portOf (s : State) : Port → PortS
  | .lka => s.ring.lka
  | .lkb => s.ring.lkb

/-- Replaces the state of a port. -/
def modPort (p : Port) (f : PortS → PortS) (s : State) : State :=
  match p with
  | .lka => { s with ring := { s.ring with lka := f s.ring.lka } }
  | .lkb => { s with ring := { s.ring with lkb := f s.ring.lkb } }

/-- The other port. -/
def otherPort : Port → Port
  | .lka => .lkb
  | .lkb => .lka

/-- The frame carries TTX (Table 10-3). -/
def frameHasTtx (f : Frame) : Bool := decide (3 ≤ f.ftype.toNat)

/-- The bytes TF, SRC, HOPS, LEN, TTX and BODY, with TURNED and HOPS as given (R231). -/
def frameHead (f : Frame) (turned : Bool) (hops : Byte) : List Byte :=
  BitVec.ofNat 8 (f.ftype.toNat * 16 + bit turned 3) :: f.src :: hops :: f.len :: ((if frameHasTtx f then bvBytes 4 f.ttx else []) ++ f.body)

/-- TAG: the first 8 bytes of AES-128-GMAC, with TURNED and HOPS taken as 0, and the IV of TYPE, SRC, T and 0x0000 (R234). -/
def frameTag (key : List Byte) (f : Frame) (t : Nat) : BitVec 64 :=
  BitVec.ofNat 64 (leNat ((gmac key (BitVec.ofNat 8 f.ftype.toNat :: f.src :: leBytes 8 t ++ [0, 0]) (frameHead f false 0)).take 8))

/-- CRC-32C over TF through TAG as they stand on the wire (R233). -/
def frameCrc (f : Frame) : BitVec 32 := crc32c (frameHead f f.turned f.hops ++ bvBytes 8 f.tag)

/-- The rack key; before one is installed its bytes are not stated (log entry 8). -/
def rackKeyOf (s : State) : List Byte := s.key.rackKey.getD (fitBytes 16 (Config.freeBytes 0))

/-- A frame that this SZ716 originates, sealed for time t, which its TTX carries (R231 to R234). -/
def ownFrame (s : State) (ftype : Nat) (t : Nat) (body : List Byte) : Frame :=
  let f : Frame := ⟨BitVec.ofNat 4 ftype, false, BitVec.ofNat 8 (position s), 0, BitVec.ofNat 8 (body.length / 4),
    BitVec.ofNat 32 (t % 2 ^ 32), body, 0, 0, true⟩
  let f := if position s != 0 then { f with tag := frameTag (rackKeyOf s) f t } else f
  { f with crc := frameCrc f }

/-- The 64-bit time congruent to a 32-bit value and nearest the ring time r (R234). -/
def extendTime (r : Nat) (v : Nat) : Nat :=
  let base := r / 2 ^ 32 * 2 ^ 32 + v
  if base + 2 ^ 31 ≤ r then base + 2 ^ 32 else if r + 2 ^ 31 < base ∧ 2 ^ 32 ≤ base then base - 2 ^ 32 else base

/-- The control period that a COMMAND names: its low 32 bits and the ring time (R106, R234). -/
def commandPeriod (s : State) (f : Frame) : Nat := extendTime (s.clk.ring / 10000) (fieldAt f.body 4 4)

/-- The time T of a frame (R234). -/
def frameTime (s : State) (f : Frame) : Nat :=
  if f.ftype = 1 then 10000 * commandPeriod s f - 8000
  else if f.ftype = 2 then fieldAt f.body 4 8
  else extendTime s.clk.ring f.ttx.toNat

/-- The entry under which a frame is remembered for 20 ms: TYPE, SRC, T and the moment (R235, R240). -/
def seenEntry (s : State) (f : Frame) : Nat × Nat × Nat × Nat := (f.ftype.toNat, f.src.toNat, frameTime s f, s.clk.now)

/-- A frame with the same TYPE, SRC and T was accepted in the last 20 ms (R235). -/
def alreadySeen (s : State) (f : Frame) : Bool :=
  s.ring.seen.any fun e => e.1 == f.ftype.toNat && e.2.1 == f.src.toNat && e.2.2.1 == frameTime s f && decide (s.clk.now < e.2.2.2 + ms 20)

/-- Remembers a frame. -/
def remember (f : Frame) (s : State) : State :=
  { s with ring := { s.ring with seen := seenEntry s f :: s.ring.seen.filter fun e => decide (s.clk.now < e.2.2.2 + ms 20) } }

/-! The line (R229, R236 to R238) -/

/-- Bytes a frame takes in a buffer. -/
def frameSize (f : Frame) : Nat := f.body.length + 20

/-- Code groups of a frame on the line: SOF, the bytes of Table 10-3, and EOF (R231). -/
def frameGroups (f : Frame) : Nat := f.body.length + (if frameHasTtx f then 22 else 18)

/-- The time that code groups take, 62.5 ns each, in whole ns rounded up (R227; log entry 173). -/
def groupNs (n : Nat) : Nat := (n * 125 + 1) / 2

/-- The first instant from ring time t at which a port may start on a free line: the LKB end at code-group boundaries of even index, the LKA end at
those of odd index (R229). -/
def parityFrom (p : Port) (t : Nat) : Nat :=
  match p with
  | .lka => instantFrom 125 63 t
  | .lkb => instantFrom 125 0 t

/-- The other end is in the gap of 2 code groups that it leaves after 32 code groups of a MSG or IMAGE (R238). -/
def PortS.inGap (now : Nat) (q : PortS) : Bool :=
  q.hears.head?.any fun h => decide (0 < h.1 ∧ h.2 = q.heardUntil ∧ h.2 ≤ now ∧ now < h.2 + 125)

/-- When a port may start next: 125 ns after what the other end has sent, or within the gap that the other end leaves (R229, R238; log entry 191). -/
def lineAt (p : Port) (s : State) : Nat :=
  let q := portOf s p
  parityFrom p (s.clk.ring + (if q.heardUntil = 0 || q.inGap s.clk.now then 0 else q.heardUntil + 125 - s.clk.now))

/-- The lowest ring time that no own frame of a type has carried (R234). -/
def freshT (y : Nat) (s : State) : Nat := s.ring.nextT.getD y 0

/-- The ring time that an own frame of a type carries when it leaves a port next: of two frames of one type no two carry the same (R229, R234). -/
def startAt (p : Port) (y : Nat) (s : State) : Nat := parityFrom p (max (s.clk.ring + (lineAt p s - s.clk.ring)) (freshT y s))

/-- Notes that an own frame of a type has carried ring time t. -/
def noteT (y t : Nat) (s : State) : State := { s with ring := { s.ring with nextT := s.ring.nextT.modify y fun u => max u (t + 1) } }

/-- The next instant at which the line must be free: the command window at T(p) - 8.05 us, or a SYNC slot of the hop at T(p) - 1.0 us of every fifth
period (R236, R237). -/
def nextStop (t : Nat) : Nat := min (instantFrom 10000 1950 t) (instantFrom 50000 49000 t)

/-- A frame that may be suspended: MSG and IMAGE (R238). -/
def suspendable (f : Frame) : Bool := f.ftype == 4 || f.ftype == 5

/-- The code groups that a port sends in one burst from ring time t: MSG and IMAGE at most 32 of their own and none beyond the next window or slot, any
other frame all (R238). -/
def burstOf (s : State) (f : Frame) (left t : Nat) : Nat :=
  if suspendable f then min (min left 32) (if s.clk.ringKnown then (nextStop t - t) * 2 / 125 else 32) else left

/-- A frame may start or go on before the next window or slot: STATUS, SNAP and SLEEP are never suspended and need 2.875 us, MSG and IMAGE one code
group (R237, R238). -/
def fitsLine (s : State) (p : Port) (f : Frame) : Bool :=
  !s.clk.ringKnown || decide (lineAt p s + (if suspendable f then 63 else 2875) ≤ nextStop (lineAt p s))

/-- The port sends a burst of a frame from ring time t, with so many code groups of it to go. -/
def burst (p : Port) (f : Frame) (left t : Nat) (s : State) : State :=
  let n := burstOf s f left t
  modPort p (fun q => { q with busy := some f, left := left - n, txUntil := s.clk.now + (t - s.clk.ring) + groupNs n }) s

/-- The port starts a frame: COMMAND and SYNC at once, any other at the next start opportunity (R229). -/
def startFrame (p : Port) (f : Frame) (s : State) : State :=
  let t := if f.ftype == 1 || f.ftype == 2 then s.clk.ring else lineAt p s
  modPort p (fun q => { q with sent := (f :: q.sent).take 16, sentCmd := q.sentCmd || f.ftype == 1,
                               lastTx := if f.ftype == 2 then some s.clk.ring else q.lastTx }) (burst p f (frameGroups f) t s)

/-- The port without the frame in progress: MSG and IMAGE are suspended with what is left of them, any other has ended; at most two frames are
suspended at one port (R236, R238). -/
def PortS.suspendBusy (now : Nat) (q : PortS) : PortS :=
  match q.busy with
  | some g =>
    let rest := q.left + (q.txUntil - now) * 2 / 125
    { q with busy := none, left := 0, suspended := if suspendable g && decide (0 < rest) then ((g, now, rest) :: q.suspended).take 2 else q.suspended }
  | none => q

/-- Suspends the frame in progress on a port (R238). -/
def suspendBusy (p : Port) (s : State) : State := modPort p (PortS.suspendBusy s.clk.now) s

/-- A reception is under way on a port: a MSG or IMAGE of the other end of which code groups follow (R238). -/
def PortS.hearing (q : PortS) : Bool := q.hears.any fun h => decide (0 < h.1)

/-- The line is free for a frame: the other end does not drive it and has no MSG or IMAGE under way, but for a frame of priority 2 to 4 in its gap, this
end leaves no gap, and it sends nothing or a MSG or IMAGE of a lower priority, which is suspended for the frame (R229, R238, R239). -/
def lineOpen (now : Nat) (q : PortS) (f : Frame) : Bool :=
  !q.window && decide (q.heardUntil ≤ now) && decide (q.gapUntil ≤ now) && (!q.hearing || (q.inGap now && decide (f.ftype.toNat ≤ 4)))
  && match q.busy with
    | none => true
    | some g => suspendable g && decide (f.ftype.toNat < g.ftype.toNat) && decide (q.suspended.length < 2)

/-! Sending (R236 to R241) -/

/-- Puts a frame among those that wait, in priority order (R239). -/
def queueFrame (f : Frame) : List Frame → List Frame
  | [] => [f]
  | g :: gs => if f.ftype.toNat < g.ftype.toNat then f :: g :: gs else g :: queueFrame f gs

/-- A frame starts at once: COMMAND in its window, SYNC in its slot, any other on a free line (R229, R236 to R239). -/
def startsNow (s : State) (p : Port) (f : Frame) : Bool :=
  f.ftype == 1 || (f.ftype == 2 && !(portOf s p).window) || (f.ftype != 2 && lineOpen s.clk.now (portOf s p) f && fitsLine s p f)

/-- Sends a frame on a port that is up: at once on a free line or over a suspended MSG or IMAGE of a lower priority; otherwise it waits in
the port's buffer of 2 KiB (R236 to R239). A port that is down sends nothing; SYNC is also sent in TRAINING (R246). -/
def sendFrame (p : Port) (f : Frame) (s : State) : State :=
  let q := portOf s p
  if q.state == .down || (q.state == .training && f.ftype != 2) then s
  else if startsNow s p f then startFrame p f (suspendBusy p s)
  else if (q.waiting.map frameSize).foldl (· + ·) 0 + frameSize f ≤ 2048 then modPort p (fun q => { q with waiting := queueFrame f q.waiting }) s
  else s

/-- Sends a flooded frame of this SZ716 on both ports and counts it (counters 51 to 57); a shelf without a position originates none (R234). -/
def flood (f : Frame) (s : State) : State :=
  if f.src = 0 then s else count (50 + f.ftype.toNat) (sendFrame .lkb f (sendFrame .lka f (remember f s)))

/-- The ring time at which the first copy of a flooded own frame leaves: that of the port which may start first of those that are up (R229, R234; log
entry 139). -/
def floodAt (y : Nat) (s : State) : Nat :=
  let a := startAt .lka y s
  let b := startAt .lkb y s
  if s.ring.lkb.state != .up then a else if s.ring.lka.state != .up then b else min a b

/-- Forms a flooded frame of a type for the moment at which its first copy may leave, and sends it (R234, R240; log entry 139). -/
def floodBody (y : Nat) (body : List Byte) (s : State) : State :=
  let t := floodAt y s
  flood (ownFrame s y t body) (noteT y t s)

/-- The port of the shorter path to the Wellhead: LKA when the distances are equal (R241). -/
def wellheadPort (s : State) : Port := if distVia s.ring.lka ≤ distVia s.ring.lkb then .lka else .lkb

/-- An origin whose chosen port is down uses its other port (R241). -/
def usable (s : State) (p : Port) : Port := if (portOf s p).state == .up then p else otherPort p

/-- Forms a frame of this SZ716 for the moment at which it may leave a port, sends it there and counts it; a shelf without a position originates
none (R229, R234). -/
def sendOwn (p : Port) (y : Nat) (body : List Byte) (s : State) : State :=
  if position s = 0 then s
  else
    let t := startAt p y s
    count (50 + y) (sendFrame p (ownFrame s y t body) (noteT y t s))

/-- Sends a routed frame of this SZ716 (R241). -/
def route (p : Port) (y : Nat) (body : List Byte) (s : State) : State := sendOwn (usable s p) y body s

/-! STATUS at the Wellhead (R208, R209, R213, R216, R223) -/

/-- The row the Wellhead holds of shelf position sh. -/
def row (s : State) (sh : Nat) : ShelfRow := s.rack.rows.getD (sh - 1) ShelfRow.reset

/-- Replaces a row. -/
def modRow (sh : Nat) (f : ShelfRow → ShelfRow) (s : State) : State :=
  if sh = 0 then s else { s with rack := { s.rack with rows := s.rack.rows.modify (sh - 1) f } }

/-- SFLAGS bits of a row (Table 9-4). -/
def ShelfRow.flag (r : ShelfRow) (b : Nat) : Bool := r.sflags.getLsbD b

/-- A shelf that carries its share: it has reported, is ready and admitted, and is not out of service (R5, log entry 12). -/
def ShelfRow.regulates (r : ShelfRow) : Bool := r.seen.isSome && r.flag 15 && r.flag 14 && !r.flag 12

/-- A shelf on its way in: ready, with its switch open or named for admission (R209, log entry 12). -/
def ShelfRow.starts (named : Bool) (r : ShelfRow) : Bool :=
  r.seen.isSome && r.flag 15 && !r.flag 14 && !r.flag 12 && !r.flag 8 && (named || !r.flag 13)

/-- Shelf position h is in service (R204, R208, log entry 12). -/
def inService (s : State) (h : Nat) : Bool :=
  (row s h).regulates || (row s h).starts (s.rack.admitting == some h)

/-- The positions of the in-service shelves. -/
def serviceShelves (s : State) : List Nat := ((List.range 32).map (· + 1)).filter (inService s)

/-- Shelves under HOLD_SHARE: settling or without ring time, and up to the frame boundary after that (R209). -/
def ShelfRow.holdShare (ring : Nat) (r : ShelfRow) : Bool := r.flag 10 || r.flag 9 || decide (ring < r.holdUntil)

/-- Shelf position h is under HOLD_SHARE: for its ring time (R209), or while it holds an activation grant (R372). -/
def underHold (s : State) (h : Nat) : Bool := (row s h).holdShare s.clk.ring || s.rack.grantTo == some h

/-- The admitted shelves that share; the held shelves; the starting shelves, which count as 0 V (R208, R209). -/
def sharing (s : State) : List Nat := (serviceShelves s).filter fun h => (row s h).regulates && !underHold s h
/-- The shelves under HOLD_SHARE. -/
def heldShelves (s : State) : List Nat := (serviceShelves s).filter fun h => (row s h).regulates && underHold s h
/-- The shelves that are being admitted. -/
def startingShelves (s : State) : List Nat := (serviceShelves s).filter fun h => !(row s h).regulates

/-- ILIM of a row in a direction; none above 6,553.4 A or before a report (Table 9-3). -/
def ShelfRow.limit (charge : Bool) (r : ShelfRow) : Option Rat :=
  let v := if charge then r.ilimCh else r.ilim
  if v = 0xFFFF then none else some ((v.toNat : Rat) / 10)

/-- The weight w(s) = E(s) k(s) of a shelf (R208); until its first page-1 STATUS that of the checkpoint (R216). -/
def weight (s : State) (h : Nat) : Rat :=
  let r := row s h
  let ch := decide (s.rack.iRef < 0)
  let k := match r.limit ch with
    | some l => clampRat ((l / maxRat (absRat s.rack.iRef) 1 - 1) / (2 / 10)) (1 / 4) 1
    | none => 1
  if r.page1 then (if ch then (r.ech.toNat : Rat) else (r.edis.toNat : Rat)) * k else r.wCk

/-- The shares f(s) of every in-service shelf, quantised to 2^-16 and at most 0xFFFF (R208). -/
def updateShares (s : State) : State :=
  let l := serviceShelves s
  let sum := sumRat (l.map (weight s))
  let n : Rat := (l.length : Rat)
  let f := fun (h : Nat) => if sum = 0 then 1 / n else weight s h / sum
  let upd := fun (i : Nat) (r : ShelfRow) =>
    { r with share := if l.contains (i + 1) then BitVec.ofNat 16 (min 0xFFFF (roundRat (f (i + 1) * 65536)).toNat) else 0 }
  { s with rack := { s.rack with rows := mapLvl s.rack.rows upd } }

/-- The leader order: the list of 0x070F and then every other position up to N, ascending (R216). -/
def leaderOrder (s : State) : List Nat :=
  let l := (paramIn s.cfg.effective 0x070F).map (·.toNat)
  l ++ ((List.range (shelfCount s)).map (· + 1)).filter fun h => !l.contains h

/-- The leader order as a circle, from the place after position h (R216). -/
def circleAfter (s : State) (h : Nat) : List Nat :=
  let o := leaderOrder s
  (o.dropWhile (· != h)).drop 1 ++ o.takeWhile (· != h)

/-- The succession list: the first three from the place after the Wellhead's own that are in service with their shelf bypass
switch open (R216). -/
def successors (s : State) : List Nat := ((circleAfter s (position s)).filter fun h => inService s h && !(row s h).flag 13).take 3

/-- Two consecutive mismatches of the page-0 digest set CFG_MISMATCH (R223): the row and whether the mark is new. -/
def judgeDigest (own : List Byte) (r : ShelfRow) : ShelfRow × Bool :=
  if bvBytes 8 r.digest = own then ({ r with misRun := 0, mismatch := false }, false)
  else ({ r with misRun := r.misRun + 1, mismatch := r.mismatch || decide (1 ≤ r.misRun) }, !r.mismatch && decide (1 ≤ r.misRun))

/-- The row after a STATUS body (Table 9-3). A shelf that was in hold-up and has been silent for more than 400 us before it reports no hold-up has
lost its gates (R103; DEDUCED, log entry 169). -/
def rowAfter (s : State) (b : List Byte) (r : ShelfRow) : ShelfRow :=
  let fl := BitVec.ofNat 16 (fieldAt b 1 2)
  let lim := BitVec.ofNat 16 (fieldAt b 4 2)
  let frame := 10000 * max 1 s.mod.frameLen
  let cleared := (r.flag 10 || r.flag 9) && !fl.getLsbD 10 && !fl.getLsbD 9
  let silent := r.seen.any fun t => decide (t + us 400 < s.clk.now)
  let r := { r with fell := r.fell || (r.flag 11 && !fl.getLsbD 11 && silent), seen := some s.clk.now, sflags := fl, ilim := if fl.getLsbD 6 then r.ilim else lim,
                    ilimCh := if fl.getLsbD 6 then lim else r.ilimCh,
                    holdUntil := if cleared then instantFrom frame 0 (s.clk.ring + 1) else r.holdUntil,
                    dirOk := r.dirOk || s.rack.refCh.any (fl.getLsbD 6 == ·) }
  if fl.getLsbD 4 then
    { r with vlo := BitVec.ofNat 16 (fieldAt b 8 2), vhi := BitVec.ofNat 16 (fieldAt b 10 2), edis := BitVec.ofNat 16 (fieldAt b 12 2),
             ech := BitVec.ofNat 16 (fieldAt b 14 2), ith := BitVec.ofNat 16 (fieldAt b 16 2), istk := if fl.getLsbD 6 then r.istk else BitVec.ofNat 16 (fieldAt b 18 2),
             istkCh := if fl.getLsbD 6 then BitVec.ofNat 16 (fieldAt b 18 2) else r.istkCh, page1 := true }
  else { r with gen := BitVec.ofNat 32 (fieldAt b 8 4), digest := BitVec.ofNat 64 (fieldAt b 12 8) }

/-- A rack commit is confirmed once page-0 STATUS of every in-service shelf shows G and the new digest, 400 us after T(c) at the latest; RACK_COMMIT
gets its final response then (R224, Table 9-9; log entry 170). -/
def confirmCommit (s : State) : State :=
  match s.rack.confirm with
  | none => s
  | some c =>
    let shown := fun (h : Nat) => h == position s || ((row s h).gen == c.1 && bvBytes 8 (row s h).digest == digestOf s.cfg.params)
    if decide (c.2 + us 400 ≤ s.clk.ring) || (serviceShelves s).all shown then
      let s := finishOpt s.rack.commitReq 0x00 (bvBytes 4 c.1 ++ leBytes 8 c.2) s
      { s with rack := { s.rack with confirm := none, commitReq := none } }
    else s

/-- The Wellhead takes a STATUS body of a shelf: its row, CFG_MISMATCH at page 0, the weights and the succession list at page 1, and
the end of an admission. Answers also whether CFG_MISMATCH is new. -/
def takeStatus (b : List Byte) (s : State) : State × Bool :=
  let h := fieldAt b 0 1
  let r := rowAfter s b (row s h)
  let p := if r.flag 4 then (r, false) else judgeDigest (digestOf s.cfg.params) r
  let s := modRow h (fun _ => p.1) s
  let s := if r.flag 4 then s else confirmCommit s
  let s := if s.rack.admitting == some h && (r.flag 14 || r.flag 8 || r.flag 12) then { s with rack := { s.rack with admitting := none } } else s
  if r.flag 4 then
    let s := updateShares s
    ({ s with rack := { s.rack with succ := successors s } }, p.2)
  else (s, p.2)

/-- Sends a STATUS of a page: routed to the Wellhead, or taken at once by a Wellhead of its own shelf (R204, R241). -/
def sendStatus (page : Bool) (s : State) : State :=
  if s.clk.pstate != .run || position s == 0 then s
  else
    let b := statusBody s page
    let s := if page then { s with mod := { s.mod with vlo := fieldAt b 8 2, vhi := fieldAt b 10 2 } } else s
    if s.rack.wellhead then (takeStatus b s).1
    else route (wellheadPort s) 3 b s

/-! Messages (R248, R249) -/

/-- The MSG body: the transport header of Table 10-10 and the data, filled up to whole words. -/
def msgBody (dst kind seq ack chan : Byte) (data : List Byte) : List Byte :=
  [dst, kind, seq, ack] ++ leBytes 2 data.length ++ [chan, 0] ++ fitBytes ((data.length + 3) / 4 * 4) data

/-- A unicast MSG goes out on LKB when DST exceeds SRC, and on LKA otherwise (R241). -/
def msgPort (s : State) (dst : Byte) : Port := if position s < dst.toNat then .lkb else .lka

/-- Sends a message that is at the front for its destination, and keeps it until its ACK (R249). -/
def launchMsg (m : Msg) (s : State) : State :=
  let s := { s with ring := { s.ring with flight := s.ring.flight ++ [{ m with due := s.clk.now + ms 1 }] } }
  route m.port 4 (msgBody m.dst (BitVec.ofNat 8 (bit m.start 1)) m.seq 0 m.chan m.data) s

/-- Sends data to one member or to every member (R248, R249): at most one unacknowledged MSG for each destination. -/
def sendMsg (dst : Nat) (chan : Byte) (data : List Byte) (s : State) : State :=
  let d := BitVec.ofNat 8 dst
  if s.clk.pstate != .run || position s == 0 then s
  else if dst = 0xFF then floodBody 4 (msgBody 0xFF 0 0 0 chan data) s
  else
    let q := (getKey dst s.ring.seqs).getD 0
    let m : Msg := ⟨d, chan, q, !s.ring.started.contains dst, data, usable s (msgPort s d), 0, 0⟩
    let s := { s with ring := { s.ring with seqs := putKey dst (q + 1) s.ring.seqs,
                                            started := if s.ring.started.contains dst then s.ring.started else dst :: s.ring.started } }
    if s.ring.flight.any (·.dst == d) then { s with ring := { s.ring with msgQueue := s.ring.msgQueue ++ [m] } }
    else launchMsg m s

/-! Checkpoints and handover (R216, R217) -/

/-- R(d) in force in mOhm: that of the checkpoint the role was taken with, or the configured one (R206, R216). -/
def droopMilli (s : State) : Nat := s.rack.rd.getD (s.parN 0x0701)

/-- The weights w(s) of the in-service shelves as a checkpoint carries them, 0 for any other shelf (R216). -/
def weightsNow (s : State) : List Nat :=
  (List.range 32).map fun i => if inService s (i + 1) then (weight s (i + 1) * 65536).floor.toNat else 0

/-- The checkpoint as the Wellhead forms it (R216), with the boundary of a planned handover where one is named (R217). -/
def formCheckpoint (boundary : Option Nat) (s : State) : Checkpoint :=
  { epoch := s.rack.epoch, vd := s.rack.vd, rd := droopMilli s, plant := s.rack.plant, rpath := s.rack.rpath,
    busHu := s.rack.busHu, weights := weightsNow s, phases := s.rack.phases, admits := s.rack.admitting, vote := s.rack.voting,
    voteNo := s.rack.voteNo, staged := s.rack.stage, succ := s.rack.succ, boundary := boundary }

/-- A checkpoint as numbers; how they are laid out in a message is not stated (log entry 9). -/
def ckptNumbers (c : Checkpoint) : List Nat :=
  [c.epoch.toNat, (c.vd.map fun v => (v * 10).floor.toNat + 1).getD 0, c.rd, bit c.plant.given 0, bit c.plant.power 0, (c.plant.dis * 10).floor.toNat,
   (c.plant.ch * 10).floor.toNat, (c.rpath * 1000000).floor.toNat, bit c.busHu 0, c.admits.getD 0, bit c.vote 0, c.voteNo.toNat,
   (c.boundary.map (· + 1)).getD 0, c.weights.length, c.phases.length]
  ++ c.weights ++ c.phases ++ (c.succ ++ [0, 0, 0]).take 3 ++ (c.staged.flatMap fun p => recordBytes p.id p.vals).map (·.toNat)

/-- The checkpoint that numbers give. -/
def ckptOf (l : List Nat) : Checkpoint :=
  let g := fun (i : Nat) => l.getD i 0
  let w := l.drop 15
  let ph := w.drop (g 13)
  let su := ph.drop (g 14)
  { epoch := BitVec.ofNat 32 (g 0), vd := if g 1 = 0 then none else some (((g 1 - 1 : Nat) : Rat) / 10), rd := g 2, plant := ⟨g 3 = 1, g 4 = 1, (g 5 : Rat) / 10, (g 6 : Rat) / 10⟩,
    rpath := (g 7 : Rat) / 1000000, busHu := g 8 = 1, admits := if g 9 = 0 then none else some (g 9), vote := g 10 = 1, voteNo := BitVec.ofNat 32 (g 11),
    boundary := if g 12 = 0 then none else some (g 12 - 1), weights := w.take (g 13), phases := ph.take (g 14),
    succ := (su.take 3).filter (0 < ·), staged := (stageRecords [] [] [] true 128 61 ((su.drop 3).map (BitVec.ofNat 8)) [] 0).1 }

/-- Sends a checkpoint to successors 1 and 2 by MSG (R216); its layout is not stated (log entry 9). -/
def sendCheckpoint (boundary : Option Nat) (s : State) : State :=
  let d := (Config.encodeCheckpoint (ckptNumbers (formCheckpoint boundary s))).take 504
  (s.rack.succ.take 2).foldl (fun st h => sendMsg h 0x01 d st) { s with rack := { s.rack with ckptAt := s.clk.now + ms 100 } }

/-- The role ends here: what ran for it ends with it, its requests answered NOT_LEADER with the next Wellhead (R217, R220, R314, Table 9-10). A
commit whose order has gone out goes on to T(c). -/
def loseRole (next : Nat) (s : State) : State :=
  let who := leBytes 1 next
  let s := finishOpt s.rack.stageReq 0x40 who (finishOpt s.rack.voteReq 0x40 who (finishOpt s.rack.handover 0x40 who s))
  { s with rack := { s.rack with wellhead := false, handAt := none, handover := none, voting := false, voteReq := none, staging := false, staged := false,
                                 stage := [], stageReq := none } }

/-- Starts a planned handover: a fresh checkpoint, which names a period boundary; with no successor the Wellhead stops issuing
(R217, Table 12-4). -/
def planHandover (s : State) : State :=
  if !s.rack.wellhead then s
  else if s.rack.succ.isEmpty then loseRole 0 s
  else
    let p := s.clk.ring / 10000 + 2
    let s := sendCheckpoint (some p) s
    { s with rack := { s.rack with handAt := some p } }

/-- The old Wellhead stops issuing at the named boundary; HANDOVER gets its final response (R217, Table 14-8). -/
def standDown (p : Nat) (s : State) : State :=
  let s := advanceRing (10000 * p) s
  let next := s.rack.succ.headD 0
  let s := finishOpt s.rack.handover 0x00 (bvBytes 4 (s.rack.epoch + 1) ++ leBytes 1 next) { s with rack := { s.rack with leader := next } }
  loseRole next { s with rack := { s.rack with handover := none } }

/-- A Wellhead whose shelf is ordered out of the string hands over before the shelf bypass switch closes (R217, Table 9-10). -/
def handOverFirst (s : State) : State :=
  let s := planHandover s
  match s.rack.handAt with
  | some p => if s.rack.wellhead then standDown p s else s
  | none => s

/-- A Wellhead whose shelf bypass switch the guard is about to close names the boundary to its successor and stops issuing at once: with the switch
closed it cannot measure the current (R201, Table 12-4; DEDUCED, log entry 171). -/
def yieldRole (s : State) : State :=
  if !s.rack.wellhead then s
  else
    let s := planHandover s
    if s.rack.wellhead then loseRole (s.rack.succ.headD 0) s else s

end Sys2Proof.Machine
end

