-- ==== Sys2Proof/Machine/Faults.lean ====
section
/-! DEFINITION. The fault collector: latching, event records, escalation and the reactions of Tables 12-4 and 12-5. -/

namespace Sys2Proof.Machine

/-- CLASS of Table 15-5. -/
def gradeCode : Grade → Nat
  | .none => 0 | .corrected => 1 | .contained => 2 | .fatal => 3

/-- Pulls FLT_N low for 1 ms when the assertion mask selects the channel (R266, Table 12-5). -/
def assertFlt (maskBit : Nat) (s : State) : State :=
  if (s.par 0x08C4).toNat.testBit maskBit then { s with aux := { s.aux with fltOwn := some (s.clk.now + ms 1) } } else s

/-! The engine's initialisation (R173, R180, R182) -/

/-- The engine mode in force as the templates take it (Table 8-8). -/
def engineMode (s : State) : Nat := s.parN 0x0600

/-- The parameter values of the active model file, record by record (R175). -/
def filePars (s : State) : List Rat := (List.range (modelField s 32 2)).map fun i => (Config.fileParam s.nv.fileActive i).1

/-- The parameters of a member: every record with an uncertainty is drawn log-normally about its centre (R180). n and i number the draw. -/
def drawPars (s : State) (n i : Nat) (centre : List Rat) : List Rat :=
  mapLvl centre fun j c =>
    let d := (Config.fileParam s.nv.fileActive j).2
    if d = 0 then c else Config.logNormal n (65536 * i + j) c d

/-- The values about which the members of cell k + 1 are drawn at initialisation: its learned set where one exists, or the file (R180). -/
def centreOf (s : State) (k : Nat) : List Rat := (s.eng.learned.getD k none).getD (filePars s)

/-- A member at initialisation: an anchored cell starts at s(k), another at the state of charge that its open-circuit curve gives for the
latest bypassed sample (R182), or for the voltage of the allocation where it has had none (DESIGN CHOICE, log entry 202). -/
def newMember (s : State) (n i k : Nat) (centre : List Rat) (w : Rat) : Member :=
  let f := s.nv.fileActive
  let q := drawPars s n i centre
  let v := ((stepRec s k).vByp.map (·.1)).getD (cellV s k)
  let soc := ((acc s k).soc).getD (Config.ocvSoc f q v)
  ⟨q, Config.startState (engineMode s) f q soc (cellTemp s k), w, none, 0⟩

/-- Members at a throttle level (Table 8-8a). -/
def membersAt (s : State) (l : Fin 4) : Nat :=
  let m := s.parN 0x0601
  if l = 0 then m else if l = 1 then max 16 (m / 2) else if l = 2 then 16 else 0

/-- Tile t initialises: every member of the present throttle level is drawn anew, and the warm-up begins (R182). n numbers the drawing. -/
def initTile (s : State) (n t : Nat) (r : Tile) : Tile :=
  let m := membersAt s s.eng.throttle
  let c := (r.cell.map fun k => centreOf s k.val).getD []
  let one := fun (k : Fin 16) => (List.range m).map fun i => newMember s n (64 * t + i) k.val c (1 / (m : Rat))
  { r with warmup := true, warmAt := s.clk.now, collapse := false, members := (r.cell.map one).getD [], block := c, resid := [], overSince := none,
           stepping := false, front := { r.front with ready := false }, back := { r.back with ready := false }, swapAt := none }

/-- Every tile initialises (R182). -/
def initTiles (s : State) : State :=
  let p := takeFree s
  { p.2 with eng := { p.2.eng with tiles := mapLvl p.2.eng.tiles (initTile s p.1) } }

/-- One tile initialises (R182). -/
def initOne (t : Nat) (s : State) : State :=
  let p := takeFree s
  { p.2 with eng := { p.2.eng with tiles := p.2.eng.tiles.modify t (initTile s p.1 t) } }

/-- The tile that serves cell k + 1 is withdrawn; the cell moves to the lowest spare tile and initialises there, if there is one (R172,
R197). -/
def withdrawTile (k : Nat) (s : State) : State :=
  match tileOf s k with
  | none => s
  | some t =>
    let s := { s with eng := { s.eng with tiles := s.eng.tiles.modify t fun r => { r with fault := true, stepping := false } } }
    let spare := (List.range 16).find? fun j =>
      let r := s.eng.tiles.getD j Tile.reset
      decide (cellCount s ≤ j) && !r.fault && r.cell.all fun c => decide (cellCount s ≤ c.val)
    match spare with
    | none => s
    | some j => initOne j { s with eng := { s.eng with tiles := s.eng.tiles.modify j fun r => { r with cell := some (Fin.ofNat 16 k) } } }

/-- Maps a page to a free spare page, also one that is mapped already; with no spare free it stays in place (R340). The remap table and the page
are written where a write may begin; otherwise the page waits for a write that may (R286). -/
def remapPage (page : Nat) (s : State) : State :=
  if !canWrite s then { s with nv := { s.nv with remapDue := (page :: s.nv.remapDue).eraseDups } }
  else match (List.range 2496).find? fun n => !s.nv.remap.any (·.2 == n) with
  | some n => { s with nv := { s.nv with remap := (s.nv.remap.filter (·.1 != page)) ++ [(page, n)] } }
  | none => s

/-- The severe reaction of a source (Table 12-5). k is the level or channel of the event, 0 for the shelf. -/
def severeReaction (b k : Nat) (s : State) : State :=
  if b = 24 then { s with lad := { s.lad with severeHold := true } }
  else if b = 21 then { s with flt := { s.flt with halfHall := true } }
  else if b = 18 then
    let t := s.clk.now + sec 10
    let hold := fun (q : PortS) => if q.state == .down then { q with heldDown := t } else q
    { s with ring := { s.ring with lka := hold s.ring.lka, lkb := hold s.ring.lkb } }
  else if b = 14 then s.nv.weak.foldl (fun st page => remapPage page st) s
  else if b = 10 then { s with flt := { s.flt with fuseHold := s.flt.fuseHold ||| (1#7 <<< k) } }
  else s

/-- Counts a corrected or contained event, with the severe reaction where the source becomes severe (R289). -/
def countFault (b k : Nat) (s : State) : State :=
  let t := countSource b s
  if !(sourceRec s b).severe && (sourceRec t b).severe then severeReaction b k t else t

/-- The fatal reaction of Table 12-4: FATAL, out of service, a planned handover, and STATUS; the guard parks every level and closes
the shelf bypass switch unless R99 bars it, which ends every anchor (Table 7-3). step: the levels are parked one at a time instead (invalid pack response, R290). -/
def fatalReaction (b : Nat) (step : Bool) (s : State) : State :=
  let s := latch 31 s
  let s := { s with flt := { s.flt with fatalSrc := some (s.flt.fatalSrc.getD b) }, lad := { s.lad with oos := true } }
  let s := endAnchors (if step then planHandover s else yieldRole s)
  let s := if step then { endAdmission s with lad := { (endAdmission s).lad with parkRun := .invalidPack, parkNext := s.clk.now } }
           else parkAndClose 0x1 s
  sendStatus true s

/-- One event at the collector: FSTAT, the event record, and by its class the count towards severe or the fatal reaction (R287 to
R290, R404). b is the FSTAT bit, ev numbers the event of the source, k its level or channel, 0 for the shelf. -/
def raiseWith (b : Nat) (g : Grade) (ev k : Nat) (inj step : Bool) (s : State) : State :=
  let s := eventRecord b ev k (gradeCode g) inj (latch b s)
  match g with
  | .none => s
  | .corrected => countFault b k s
  | .contained => countFault b k s
  | .fatal => fatalReaction b step s

/-- An event of the device itself, with the injection mark where an injected offset or line has brought it (R292). -/
def raise (b : Nat) (g : Grade) (ev k : Nat) (s : State) : State := raiseWith b g ev k s.flt.marking false s

/-- Carries out what an injection brings about: its events carry the mark (R292). -/
def marked (on : Bool) (f : State → State) (s : State) : State :=
  let t := f { s with flt := { s.flt with marking := s.flt.marking || on } }
  { t with flt := { t.flt with marking := s.flt.marking } }

/-- An offset is armed at one of some targets (Table 18-6). -/
def offsetArmed (l : List Nat) (s : State) : Bool := s.flt.injections.any fun i => i.kind == 2 && l.contains i.target.toNat

/-- The bits that an armed corruption flips in the next word read at a target, whether a second read finds them flipped too, and its use: one
that acts once is spent (R291, R401). -/
def corruption (target : Nat) (s : State) : Nat × Bool × State :=
  match s.flt.injections.find? (fun i => i.target.toNat == target && i.kind == 3) with
  | none => (0, false, s)
  | some i =>
    (((List.range 32).filter fun b => i.value.getLsbD b).length, i.ends.isSome, if i.ends.isSome then s
      else { s with flt := { s.flt with injections := s.flt.injections.filter fun j => !(j.id == i.id) } })

/-- A read of an MRAM page under an armed corruption: whether it is corrected, whether it stays uncorrectable. Two bits are corrected; three or
more fail both reads only where the corruption acts for a stated time, for one that acts once spares the second (R339, R401; log entry
180). -/
def pageCorrupted (page : Nat) (s : State) : Bool × Bool × State :=
  let p := if page < 0x400 then corruption 0x0221 s else if 0x4000 ≤ page then corruption 0x0222 s else (0, false, s)
  (decide (0 < p.1) && !(decide (3 ≤ p.1) && p.2.1), decide (3 ≤ p.1) && p.2.1, p.2.2)

/-- A read of an MRAM page outside the scrubber is checked like every read (R339): whether the group stays uncorrectable, and the events. -/
def checkedRead (page : Nat) (s : State) : Bool × State :=
  let q := pageCorrupted page s
  if q.2.1 then (true, raiseWith 14 .contained 1 0 true false (count 78 q.2.2))
  else if q.1 then (false, raiseWith 14 .corrected 0 0 true false (count 77 q.2.2))
  else (false, q.2.2)

/-- A word of the control die's SRAM outside the tiles under an armed corruption, read at once: one bit is corrected, more are contained
(Table 12-5; log entry 180). -/
def readCorrupted (s : State) : State :=
  let p := corruption 0x0220 s
  if p.1 = 0 then p.2.2 else raiseWith 15 (if p.1 = 1 then .corrected else .contained) (if p.1 = 1 then 0 else 1) 0 true false p.2.2

/-- Safe mode begins with its event: the engine goes to level 3 and a Wellhead hands over (R282). In safe mode the event stands alone. -/
def enterSafe (ev : Nat) (inj : Bool) (s : State) : State :=
  if s.flt.safe then raiseWith 27 .contained ev 0 inj false s
  else planHandover (raiseWith 27 .contained ev 0 inj false { s with flt := { s.flt with safe := true, safeAt := s.clk.now }, eng := { s.eng with throttleWant := 3 } })

/-- Latches a bit and writes an event record without a class of its own (Table 12-2). -/
def note (b ev : Nat) (s : State) : State := eventRecord b ev 0 0 false (latch b s)

/-- Whether the cause of the fatal event persists (Table 14-1 FAULT_CLEAR, Table 12-5). -/
def causePersists (s : State) : Bool :=
  match s.flt.fatalSrc with
  | none => false
  | some b =>
    if b = 26 then decide ((powerValid s).length < 3)
    else if b = 27 then s.flt.powShut.above || (s.flt.safe && s.flt.ctrlShut.above)
    else if b = 23 then
      (presentLevels s).any (fun k => (lvl s k).check == 6 || (lvl s k).check == 7) || decide (s.parN 0x0308 < retiredCount s)
    else if b = 21 then s.meas.shuntFail && s.meas.hallFail
    else if b = 19 then !s.clk.pll
    else if b = 11 then s.aux.rails.any fun r => r.st == .latchedOff
    else if b = 6 then s.chg.token == .invalid
    else b == 14

/-- The shelf leaves service when the retired count exceeds the configured maximum (R90, Table 12-5). -/
def judgeRetired (s : State) : State := if s.parN 0x0308 < retiredCount s then raise 23 .fatal 8 0 s else s

/-- A shelf in service is judged again where its retired count or the configured maximum may have changed (R90). -/
def judgeService (s : State) : State := if s.lad.oos then s else judgeRetired s

end Sys2Proof.Machine
end

