-- ==== Sys2Proof/Machine/Impedance.lean ====
section
/-! DEFINITION. The impedance function of the model engine (R190 to R192): the two streams, their demodulation into the open window of each
point, and what a window that is complete gives. -/

namespace Sys2Proof.Machine

/-- f(j) in Hz: 0.1 Hz × 50,000^(j/31) (R190). -/
def pointHz (j : Nat) : Rat := 1 / (10 * expNeg ((j : Rat) / 31 * lnRat 50000))

/-- The length of a sub-window of point j in ns: 2 / f(j), at least 100 ms (R191). -/
def subLen (j : Nat) : Nat := (1000000000 * maxRat (1 / 10) (2 / pointHz j)).floor.toNat

/-- The open window of a point begins anew; what is stored stays (R191, R192). -/
def Imp.reopen (p : Imp) : Imp := { Imp.reset with re := p.re, im := p.im, coh := p.coh, stamp := p.stamp }

/-- The open window of point j pauses for so many ns; one that has paused for longer than its own length, 4 sub-windows, is discarded
(R192). -/
def Imp.pause (j ns : Nat) (p : Imp) : Imp :=
  if 4 * subLen j < p.paused + ns then p.reopen else { p with paused := p.paused + ns }

/-- One stream sample of voltage v and current i, both means over the same ns, at temperature t: voltage and current are multiplied by the
cosine and sine of the point and summed, and a sub-window that is full is closed (R191). -/
def Imp.take (j ns : Nat) (v i t : Rat) (p : Imp) : Imp :=
  if 4 ≤ p.subs.length then p
  else
    let turn := pointHz j * ((p.n * ns : Nat) : Rat) / 1000000000
    let c := cosTurn turn
    let d := sinTurn turn
    let p := { p with n := p.n + 1, vc := p.vc + v * c, vs := p.vs + v * d, ic := p.ic + i * c, si := p.si + i * d
                      num := p.num + 1, iSum := p.iSum + i, tSum := p.tSum + t }
    if subLen j ≤ p.n * ns then { p with subs := p.subs ++ [(p.vc, p.vs, p.ic, p.si)], n := 0, vc := 0, vs := 0, ic := 0, si := 0 } else p

/-- A charge in steps of 2^-16 LSB over so many ns as a current in A. -/
def ampsOver (q : Int) (ns : Nat) : Rat := (q : Rat) * 100 / (65536 * (ns : Rat))

/-- Points 0 to 17 take the stream of 1 kS/s, points 18 to 31 that of 20 kS/s (R191). -/
def inBand (fast : Bool) (j : Nat) : Bool := if fast then decide (18 ≤ j) else decide (j ≤ 17)

/-- What an interval of a stream gives the tile of cell k + 1: it accumulates from 5 A of string current on and pauses below it; an interval
with no usable sample gives nothing (R191, R192). The current is positive into the cell, so that a resistance is positive (log entry 165). -/
def streamInto (s : State) (fast : Bool) (ns : Nat) (x : Stream) (t : Tile) : Tile :=
  match t.cell with
  | none => t
  | some k =>
    let v := x.v.getD k.val (0, 0)
    let low := decide (absRat (ampsOver x.c ns) < 5)
    let one := fun (j : Nat) (p : Imp) =>
      if !inBand fast j then p
      else if low then p.pause j ns
      else if v.2 = 0 then p
      else p.take j ns (v.1 / (v.2 : Rat)) (-ampsOver (x.q.getD k.val 0) ns) (cellTemp s k.val)
    if engineOn s k.val && s.par 0x0609 == 1 then { t with points := mapLvl t.points one } else t

/-- An interval of a stream has ended (R191). -/
def closeStream (fast : Bool) (ns : Nat) (x : Stream) (s : State) : State :=
  { s with eng := { s.eng with tiles := s.eng.tiles.map (streamInto s fast ns x) } }

/-- The intervals of the streams that have ended by now are closed (R191). -/
def rollStreams (s : State) : State :=
  let f := (s.clk.ring - 1) / 50000
  let m := (s.clk.ring - 1) / 1000000
  let s := if f = s.eng.fast.slot then s
    else let s := closeStream true 50000 s.eng.fast s
         { s with eng := { s.eng with fast := { Stream.reset with slot := f } } }
  if m = s.eng.slow.slot then s
  else let s := closeStream false 1000000 s.eng.slow s
       { s with eng := { s.eng with slow := { Stream.reset with slot := m } } }

/-- The charges of an integration interval enter a stream. -/
def Stream.addCharge (q : Nat → Int) (c : Int) (x : Stream) : Stream := { x with q := mapLvl x.q fun k a => a + q k, c := x.c + c }

/-- The usable cell samples of an instant enter a stream. -/
def Stream.addVolts (v : Nat → Option Rat) (x : Stream) : Stream :=
  { x with v := mapLvl x.v fun k a => match v k with | some u => (a.1 + u, a.2 + 1) | none => a }

/-- A reversal of the string current discards every open window (R192). -/
def dropWindows (s : State) : State :=
  { s with eng := { s.eng with tiles := s.eng.tiles.map fun t => { t with points := t.points.map Imp.reopen } } }

/-- The sum of the cross products of the sub-windows: voltage times the conjugate of the current (R191). -/
def Imp.cross (p : Imp) : Rat × Rat :=
  (sumRat (p.subs.map fun (a, b, c, d) => a * c + b * d), sumRat (p.subs.map fun (a, b, c, d) => a * d - b * c))

/-- The sums of the powers of voltage and current over the sub-windows. -/
def Imp.powers (p : Imp) : Rat × Rat :=
  (sumRat (p.subs.map fun (a, b, _, _) => a * a + b * b), sumRat (p.subs.map fun (_, _, c, d) => c * c + d * d))

/-- The coherence of the sub-windows: the squared magnitude of the summed cross products over the product of the summed powers (R191, log
entry 165). -/
def Imp.coherence (p : Imp) : Rat :=
  let d := p.powers.1 * p.powers.2
  if d = 0 then 0 else (p.cross.1 * p.cross.1 + p.cross.2 * p.cross.2) / d

end Sys2Proof.Machine
end

