-- ==== Sys2Proof/Machine/Measurement.lean ====
section
/-! DEFINITION. The measurement events (06_measurement.md): cell, shunt and Hall samples, the stack, switch drops, NTC slots and
corrections. -/

namespace Sys2Proof.Machine

/-- Goes to the next conversion of channel c on a grid, after the last one: on ring time once it is known, else on model time (R129, R134). -/
def toInstant (c step off : Nat) (s : State) : State :=
  let m := s.meas.marks.getD c none
  let s := if s.clk.ringKnown then advanceRing (instantFrom step off (max s.clk.ring ((m.map (·.1 + 1)).getD 0))) s
    else advanceTo (instantFrom step off (max s.clk.now ((m.map (·.2 + 1)).getD 0))) s
  { s with meas := { s.meas with marks := s.meas.marks.set c (some (s.clk.ring, s.clk.now)) } }

/-- The rate of a channel: its own in Run, 1 kHz in Watch (Table 3-1). -/
def paced (c step off : Nat) (s : State) : State := if s.clk.pstate = .run then toInstant c step off s else toInstant c 1000000 0 s

/-- A result of channel c after the factory trim of its own gain and offset and the correction of the converter's reference (R129, R143): cells
0 to 15, shunt 16, Hall 17, stack 18, switch drops 19, NTC 20. -/
def trimmed (s : State) (c : Nat) (x : Rat) : Rat :=
  x * (1 + ((s.meas.trimGain.getD c 0 + s.meas.refCorr : Int) : Rat) / 1000000) + (s.meas.trimOff.getD c 0 : Rat)

/-- The sample streams stand still while the control die is held in a reset of its own: their entries are discarded and counted (R70,
R71). -/
def streamsHeld (s : State) : Bool := inWarmReset s

/-- A sample that is discarded. -/
def discard (s : State) : State := { s with meas := { s.meas with discarded := s.meas.discarded + 1 } }

/-- The value of the armed injection of a target, and its use: one that acts once is spent (R291, R401). -/
def injected (target : Nat) (s : State) : Int × State :=
  match s.flt.injections.find? (fun i => i.target.toNat == target && i.kind == 2) with
  | none => (0, s)
  | some i =>
    (i.value.toInt, if i.ends.isSome then s
      else { s with flt := { s.flt with injections := s.flt.injections.filter fun j => !(j.id == i.id) } })

/-- Since when a condition has held: the earlier time while it holds, none when it does not. -/
def holdSince (now : Nat) (c : Bool) (t : Option Nat) : Option Nat := if c then some (t.getD now) else none

/-! Cell samples (R129 to R133) -/

/-- A sample of cell k + 1 is blanked (R131). -/
def blanked (s : State) (c : CellIn) : Bool :=
  (c.ownBefore.any fun t => decide (t ≤ 10 * s.parN 0x0400)) || (c.ownAfter.any fun t => decide (t ≤ 10 * s.parN 0x0401))
  || (c.otherAfter.any fun t => decide (t ≤ 10 * s.parN 0x0402))

/-- The word a channel delivers: an auto-zero slot repeats the previous VALUE; otherwise the corrected result, saturated with CLIP
(R129 to R131, Table 6-1). -/
def cellWord (s : State) (k : Nat) (zero : Bool) (c : CellIn) (offset inj : Int) : CellWord :=
  let v := roundRat (trimmed s k c.raw) - offset + inj
  let old := s.meas.words.getD k CellWord.reset
  ⟨if zero then old.value else if v < 0 then 0 else if 262143 < v then 262143 else BitVec.ofInt 18 v, c.ins, blanked s c,
   s.meas.owtTap == some k || s.meas.owtTap == some (k + 1), !zero && decide (v < 0 ∨ 262143 < v), zero, true⟩

/-- A sample that carries none of BLANK, OWT and ZERO (R131). -/
def CellWord.usable (w : CellWord) : Bool := !w.blank && !w.owt && !w.zero

/-- The voltage of a word in V. -/
def CellWord.volts (w : CellWord) : Rat := (w.value.toNat : Rat) / 50000

/-- The filtered step resistance after a contribution (R133). -/
def filterStep (r : StepSample) (ring : Nat) (new : Rat) : StepSample :=
  let dt : Rat := (r.rAt.map fun t => ((ring - t : Nat) : Rat) / 1000000000).getD 1
  { r with rStep := clampRat (r.rStep + (1 - expNeg dt) * (new - r.rStep)) 0 10, rAt := some ring }

/-- The step-resistance record after a sample of a level in a state (R132, R133): a change between bypassed and inserted at a period boundary
under load forms r(new) from sample B of the period before and sample A of the period after. ring: the instant. -/
def stepAfter (r : StepSample) (w : CellWord) (isA : Bool) (st : LevelSt) (i : Rat) (ring : Nat) : StepSample :=
  let v := w.volts
  let plain := st == .bypassed || st == .inserted
  let r := if !w.usable then r else if w.ins then { r with vIns := some (v, ring) } else { r with vByp := some (v, ring) }
  if isA then
    let r := match r.before with
      | some (vb, insB, iB, period) =>
        if !w.usable || !plain || insB == w.ins || period + 1 != ring / 10000 then r
        else
          let load := if w.ins then i else iB
          if absRat load < 20 then r else filterStep r ring ((if w.ins then vb - v else v - vb) / load * 1000)
      | none => r
    { r with before := none }
  else { r with before := if w.usable && plain then some (v, w.ins, i, ring / 10000) else none }

/-- What one channel delivers, with its corrected offset. -/
def sampleOne (s : State) (k : Nat) (zero : Bool) (c : CellIn) : CellWord × Int :=
  let off := s.meas.offset.getD k 0
  (cellWord s k zero c off (injected (0x0101 + k) s).1, if zero then roundRat (trimmed s k c.raw) else off)

/-- Adds what usable samples give, position by position. -/
def addUsable (l : List Rat) (ws : List CellWord) (want : CellWord → Bool) : List Rat :=
  (l.zip ws).map fun p => if want p.2 then p.1 + p.2.volts else p.1

/-- Counts usable samples, position by position. -/
def addCount (l : List Nat) (ws : List CellWord) (want : CellWord → Bool) : List Nat :=
  (l.zip ws).map fun p => if want p.2 then p.1 + 1 else p.1

/-- The cause of a guard park has cleared: the cell voltage 50 mV inside its limit, or the cell temperature 5 degC below its limit with
the input not faulted (R98). -/
def causeCleared (s : State) (k : Nat) (v : Rat) : Bool :=
  let c := (lvl s k).cause
  let g := s.lad.guard
  if c = 2 then decide (v * 1000 + 50 ≤ (g.ov : Rat))
  else if c = 3 then decide ((g.uv : Rat) + 50 ≤ v * 1000)
  else if c = 5 then
    let n := (cellNtc s k).getD Ntc.reset
    !n.faulted && n.temp.any fun t => decide (t ≤ (g.ot : Rat) - 5)
  else false

/-- Since when the cause of each guard-parked level has been clear (R98). -/
def trackCleared (s : State) : State :=
  mapLevels (fun k l =>
    if l.st == .parked then { l with clearedAt := holdSince s.clk.now ((lastUsable s k).any (causeCleared s k)) l.clearedAt }
    else l) s

/-- The usable samples of an instant enter the engine's inputs: those of the step, and the two streams (R178, R191). -/
def stepVolts (v : Nat → Option (Rat × Bool)) (e : Engine) : Engine :=
  let u := fun (k : Nat) => (v k).map (·.1)
  { e with vStep := mapLvl e.vStep fun k l => l ++ (v k).toList, fast := e.fast.addVolts u, slow := e.slow.addVolts u }

/-- All channels sample at one instant (R129): in Run at p × 10 us + 2.5 us and + 7.5 us, in Watch every 1 ms; once per second the
sample is an auto-zero slot (R130). -/
def takeCellSample (cells : List CellIn) (s : State) : State :=
  let s := paced 0 5000 2500 s
  let r := s.clk.ring
  let zero := s.clk.pstate == .run && r % 1000000000 == 2500
  let blank : CellIn := ⟨0, false, none, none, none⟩
  let res := (List.range 16).map fun k =>
    if present s k then sampleOne s k zero (cells.getD k blank) else (s.meas.words.getD k CellWord.reset, s.meas.offset.getD k 0)
  let ws := res.map (·.1)
  let ok := fun (w : CellWord) => w.seen && w.usable
  let okIns := fun (w : CellWord) => w.seen && w.usable && w.ins
  let isA := r % 10000 == 2500
  let steps := mapLvl s.meas.steps fun k q =>
    if present s k then stepAfter q (ws.getD k CellWord.reset) isA (lvl s k).st s.meas.current r else q
  let s := { s with
    meas := { s.meas with words := ws, offset := res.map (·.2), cellAt := r, steps := steps, zeroSec := if zero then r / 1000000000 else s.meas.zeroSec,
                          vSum1 := addUsable s.meas.vSum1 ws ok, vN1 := addCount s.meas.vN1 ws ok,
                          insSum1 := addUsable s.meas.insSum1 ws okIns, insN1 := addCount s.meas.insN1 ws okIns }
    mod := { s.mod with vSum := addUsable s.mod.vSum ws okIns, vCount := addCount s.mod.vCount ws okIns }
    eng := stepVolts (fun k => let w := ws.getD k CellWord.reset; if present s k && ok w then some (w.volts, w.ins) else none) s.eng }
  trackCleared ((List.range 16).foldl (fun st k => (injected (0x0101 + k) st).2) s)

/-- CELL_SAMPLE: in Run and Watch (R51, R129). -/
def execCellSample (cells : List CellIn) (s : State) : Out :=
  .next (if s.clk.pstate = .run ∨ s.clk.pstate = .watch then (if streamsHeld s then discard (paced 0 5000 2500 s) else
      marked (offsetArmed ((List.range 16).map (0x0101 + ·)) s) (takeCellSample cells) s)
    else s)

/-! String current (R134 to R137) -/

/-- The current in the report's steps of 100 uA, saturated (R136). -/
def satCurrent (i : Rat) : Int × Bool :=
  let v := roundRat (i * 10000)
  if 8388607 < v then (8388607, true) else if v < -8388607 then (-8388607, true) else (v, false)

/-- The shunt voltage as its range resolves it, in uV, and whether it is at full scale (R134). -/
def quantise (low : Bool) (nv : Int) : Rat × Bool :=
  let full : Rat := if low then 7812500 else 62500000
  let lsb := full / 524288
  let v := clampRat (((roundRat ((nv : Rat) / lsb) : Int) : Rat) * lsb) (-full) full
  (v / 1000, decide (full ≤ absRat (nv : Rat)))

/-- SHUNT_FAIL is set: an event on CURRENT, fatal when HALL_FAIL stands too (R137, Table 12-5). -/
def failShunt (s : State) : State :=
  if s.meas.shuntFail then s
  else raise 21 (if s.meas.hallFail then .fatal else .contained) 1 0 { s with meas := { s.meas with shuntFail := true } }

/-- HALL_FAIL is set: an event on CURRENT, fatal when SHUNT_FAIL stands too (R137, Table 12-5). -/
def failHall (s : State) : State :=
  if s.meas.hallFail then s
  else raise 21 (if s.meas.shuntFail then .fatal else .contained) 2 0 { s with meas := { s.meas with hallFail := true } }

/-- What follows from a current sample: the sums of the period and of the Wellhead's window, the times for which the current has been low,
and the bin it stands in (R98, R115, R123, R145, R201, R58). -/
def useCurrent (s : State) : State :=
  let i := absRat (stringA s)
  let now := s.clk.now
  let b := binFor s i
  let s := if stringA s ≠ 0 ∧ s.eng.dirSign ≠ decide (stringA s < 0) then dropWindows s else s
  let oc := minRat (((s.lad.guard.shuntOc : Nat) : Rat) / 1000000 / s.meas.shuntR) (s.lad.guard.hallOc : Rat)
  { s with
    mod := { s.mod with iSum := s.mod.iSum + stringA s, iCount := s.mod.iCount + 1 }
    eng := { s.eng with dirSign := if stringA s = 0 then s.eng.dirSign else decide (stringA s < 0) }
    meas := { s.meas with binIdx := b, binSince := if b = s.meas.binIdx then s.meas.binSince else now }
    rack := { s.rack with iWin := (stringA s :: s.rack.iWin).take 20 }
    lad := { s.lad with idleSince := holdSince now (decide (i < 2)) s.lad.idleSince,
                        quietSince := holdSince now (decide (i < oc * 80 / 100)) s.lad.quietSince }
    clk := { s.clk with belowWake := holdSince now (decide (i < (s.parN 0x0110 : Rat) / 10)) s.clk.belowWake } }

/-- The part of a shunt sample that the power die makes (R134, R135): the range, the held values after a range change, the current that the
charge integrator takes, and the time for which the shunt has clipped. nv: V(ISH_P) - V(ISH_N) in nV. -/
def shuntFront (nv : Int) (s : State) : State :=
  let m := s.meas
  let now := s.clk.now
  let quiet := holdSince now (decide (nv.natAbs < 6250000)) m.quietUv
  let up := m.lowRange && decide (7812500 ≤ nv.natAbs)
  let down := !m.lowRange && (quiet.any fun t => decide (t + us 100 ≤ now))
  let low := (m.lowRange && !up) || down
  let held := if up || down then 4 else m.heldLeft
  let q := quantise low nv
  { s with meas := { m with
      lowRange := low, heldLeft := held - 1, held := decide (0 < held), shuntUv := q.1, quietUv := quiet,
      current := if held = 0 then q.1 / 1000000 / m.shuntR else m.current, clipSince := holdSince now (decide (62500000 ≤ nv.natAbs)) m.clipSince } }

/-- SHUNT_FAIL is set by an open shunt input, or once the shunt has clipped for 10 ms while the Hall reads below 80 % of the shunt full scale;
the Hall is judged at the sample that ends the 10 ms (R137; DESIGN CHOICE, log entry 152). -/
def judgeShunt (inputOpen : Bool) (s : State) : State :=
  let stuck := (s.meas.clipSince.any fun t => decide (t + ms 10 ≤ s.clk.now)) && decide (absRat s.meas.hallA < shuntFull s * 80 / 100)
  if inputOpen || stuck then failShunt s else s

/-- The word of a shunt sample and what the fabric gathers from it (R136, R137, Table 6-3). -/
def shuntWord (nv : Int) (s : State) : State :=
  let m := s.meas
  let beyond := decide (62500000 ≤ nv.natAbs)
  let hall := m.shuntFail || beyond
  let w := satCurrent (if hall then m.hallA else m.current)
  { s with meas := { m with
      curWord := if !m.held || m.shuntFail then BitVec.ofInt 24 w.1 else m.curWord, src := hall
      clip := (if hall then decide ((s.parN 0x0405 : Rat) ≤ absRat m.hallA) else (quantise m.lowRange nv).2) || w.2
      shuntSum := m.shuntSum + m.current, shuntN := m.shuntN + 1 } }

/-- One shunt sample (R134 to R137). nanoVolt is V(ISH_P) - V(ISH_N), inputOpen the 1 uA pull-apart bias. -/
def takeShuntSample (nanoVolt : Int) (inputOpen : Bool) (s : State) : State :=
  let s := paced 1 500 0 s
  let inj := (injected 0x0120 s).1
  let nv := roundRat (trimmed s 16 nanoVolt) + roundRat ((inj : Rat) * (if s.meas.lowRange then 7812500 else 62500000) / 524288)
  let s := shuntFront nv (injected 0x0120 s).2
  if streamsHeld s then discard (judgeShunt inputOpen s) else useCurrent (judgeShunt inputOpen (shuntWord nv s))

/-- SHUNT_SAMPLE: in Run and Watch (R51, R134). -/
def execShuntSample (nanoVolt : Int) (inputOpen : Bool) (s : State) : Out :=
  .next (if s.clk.pstate = .run ∨ s.clk.pstate = .watch then
      marked (offsetArmed [0x0120] s) (takeShuntSample nanoVolt inputOpen) s else s)

/-- The Hall current of an input in uV: 0.5 V to 4.5 V is -I(H) to +I(H), in 16 bits (R136). -/
def hallAmps (s : State) (uv : Int) : Rat :=
  let code := clampRat (roundRat ((trimmed s 17 uv - 2500000) * 32768 / 2000000) : Int) (-32768) 32768
  code / 32768 * (s.parN 0x0405 : Rat)

/-- One Hall sample, at the instants of the shunt (R136, R137); HALL_FAIL outside 0.25 V to 4.75 V, and it clears inside. -/
def takeHallSample (microVolt : Int) (s : State) : State :=
  let p := injected 0x0121 (paced 2 500 0 s)
  let s := p.2
  let uv := microVolt + p.1
  let a := hallAmps s uv
  let lost := decide (uv < 250000 ∨ 4750000 < uv)
  let s := { s with meas := { s.meas with hallA := a, hallMv := (uv / 1000).toNat, hallSum := s.meas.hallSum + a, hallN := s.meas.hallN + 1,
                                          hallLost := lost } }
  if lost then failHall s else { s with meas := { s.meas with hallFail := false } }

/-- HALL_SAMPLE: in Run and Watch (R51, R136). -/
def execHallSample (microVolt : Int) (s : State) : Out :=
  .next (if s.clk.pstate = .run ∨ s.clk.pstate = .watch then (if streamsHeld s then discard (takeHallSample microVolt s) else
      marked (offsetArmed [0x0121] s) (takeHallSample microVolt) s) else s)

/-! The 1 ms means (R137, R150) and the anchors they start (R160, R161) -/

/-- A mean, or the last one where nothing was gathered. -/
def meanOr (sum : Rat) (n : Nat) (last : Rat) : Rat := if n = 0 then last else sum / (n : Rat)

/-- The currents of this 1 ms differ by more than the threshold (R137). -/
def currentsDiffer (s : State) : Bool :=
  let m := s.meas
  let sh := meanOr m.shuntSum m.shuntN m.current
  let ha := meanOr m.hallSum m.hallN m.hallA
  decide ((s.parN 0x040B : Rat) / 1000 * (s.parN 0x0405 : Rat) + 2 / 100 * absRat sh < absRat (sh - ha))

/-- The comparison of the two currents: ten consecutive means that differ set CUR_DISAGREE, with an event (R137). -/
def compareCurrents (s : State) : State :=
  let run := if s.meas.shuntN = 0 ∨ s.meas.hallN = 0 ∨ currentsDiffer s = false then 0 else s.meas.disRun + 1
  let dis := decide (10 ≤ run)
  let was := s.meas.disagree
  let s := { s with meas := { s.meas with disRun := run, disagree := dis } }
  if dis && !was then raise 21 .contained 0 0 s else s

/-- Two adjacent means, k and k + 1 by position, have moved apart within 10 ms while their sum has not (R150). -/
def pairMoved (now : List Rat) (old : List Rat) (k : Nat) : Bool :=
  let a := now.getD k 0 - old.getD k 0
  let b := now.getD (k + 1) 0 - old.getD (k + 1) 0
  ((decide (2 / 100 < a) && decide (b < -2 / 100)) || (decide (a < -2 / 100) && decide (2 / 100 < b))) && decide (absRat (a + b) < 2 / 1000)

/-- The taps that the adjacent-pair check finds: tap j lies between positions j - 1 and j (R149, R150). -/
def movedTaps (s : State) (now : List Rat) : List Nat :=
  (List.range 15).filterMap fun k =>
    if present s k && present s (k + 1) && s.meas.means.any (fun old => pairMoved now old k) then some (k + 1) else none

/-- The sum of the cell means differs from the stack mean by more than the tolerance (R150). -/
def sumOff (s : State) (now : List Rat) : Bool :=
  let st := meanOr s.meas.stackSum s.meas.stackN s.meas.stack
  let n : Rat := (cellCount s : Rat)
  decide (n * (8 / 10000) + 5 / 10000 * st + 1 / 100 < absRat (sumRat ((presentLevels s).map fun k => now.getD k 0) - st))

/-- Raises TAP_SUSPECT for taps not yet suspected, and starts their tests (R150, R151). A tap that is known to be open is not tested again
before its bit is cleared (DESIGN CHOICE, log entry 153). In Watch the ladder is held and no set is scheduled: the open-wire test alone runs, at once
(DESIGN CHOICE, log entry 184). -/
def suspectTaps (taps : List Nat) (s : State) : State :=
  let add := taps.filter fun j => !s.meas.suspects.contains j && !s.meas.tapOpen.getLsbD j
  let l := s.meas.suspects ++ add
  { s with meas := { s.meas with suspects := l, tapTest := s.meas.tapTest || !add.isEmpty
                                 owtTap := if s.clk.pstate = .watch then l.head? else s.meas.owtTap } }

/-- The taps that a failed sum check puts under suspicion: those of the cell whose mean has moved most within 10 ms; an end cell that reads
near 0 V has lost its end tap (R149, R150, log entry 72). -/
def sumSuspects (s : State) (now : List Rat) : List Nat :=
  let old := s.meas.means.getLastD now
  let move := fun (k : Nat) => absRat (now.getD k 0 - old.getD k 0)
  match (presentLevels s).mergeSort fun a b => decide (move b ≤ move a) with
  | [] => []
  | k :: _ => if k = 0 && decide (now.getD 0 0 < 1 / 2) then [0]
    else if k + 1 = cellCount s && decide (now.getD k 0 < 1 / 2) then [k + 1]
    else [k, k + 1]

/-- The sum check: 3 consecutive means that fail it set SUM_FAIL and raise TAP_SUSPECT; a mean that passes clears it (R149, R150). A test
interval is left out (R151). -/
def checkSum (now : List Rat) (s : State) : State :=
  if s.meas.tapTest || s.meas.stackN == 0 || cellCount s == 0 then s
  else if sumOff s now then
    let run := s.meas.sumRun + 1
    let s := { s with meas := { s.meas with sumRun := run, sumFail := s.meas.sumFail || decide (3 ≤ run) } }
    if 3 ≤ run then suspectTaps (sumSuspects s now) s else s
  else { s with meas := { s.meas with sumRun := 0, sumFail := false } }

/-- The present cell current in A: its duty of the period times the mean string current. -/
def cellCurrent (s : State) (k : Nat) : Rat := absRat (s.mod.duties.getD k 0 * s.mod.iMean)

/-- The taper window of an anchor in A, full or empty (Table 7-6). -/
def windowAmps (s : State) (full : Bool) : Rat := (s.parN (if full then 0x0501 else 0x0504) : Rat) / 100 * nominalAh s

/-- The anchor voltage in V (Table 7-6). -/
def anchorVolts (s : State) (full : Bool) : Rat := (s.parN (if full then 0x0500 else 0x0503) : Rat) / 200

/-- An anchor starts (R160, R161): armed, the string in its direction, and the 1 ms mean of v(ins,k) at its voltage. -/
def anchorStarts (s : State) (k : Nat) (full : Bool) : Bool :=
  s.clk.pstate == .run && available s k && (s.parN 0x0506).testBit (if full then 0 else 1) && s.mod.charge == full
  && match s.meas.insMean.getD k none with
     | some v => if full then decide (anchorVolts s true ≤ v) else decide (v ≤ anchorVolts s false)
     | none => false

/-- The hold conditions of an anchor in progress (R160, R161). -/
def holdOk (s : State) (k : Nat) (full : Bool) : Bool :=
  match (acc s k).iSec with
  | none => false
  | some i =>
    let j := if full then i else -i
    decide (absRat (s.meas.ins1s.getD k 0 - anchorVolts s full) ≤ 5 / 1000) && decide (0 ≤ j ∧ j ≤ windowAmps s full)

/-- The account of a cell after this 1 ms: an anchor starts with the present cell current as its taper limit, or its hold and its low
current run on (R160 to R162). -/
def anchorStep (s : State) (k : Nat) (a : CellAcc) : CellAcc :=
  match a.running with
  | .none =>
    if anchorStarts s k true then { a with running := .full, taper := some (cellCurrent s k), holdSince := none, lowSince := none }
    else if anchorStarts s k false then { a with running := .empty, taper := some (cellCurrent s k), holdSince := none, lowSince := none }
    else a
  | r =>
    let full := r == .full
    { a with holdSince := holdSince s.clk.ring (holdOk s k full) a.holdSince,
             lowSince := holdSince s.clk.now (decide (absRat s.mod.iMean < windowAmps s full)) a.lowSince }

/-- The limits of a signed 64-bit counter (R155). -/
def inFormat (v : Int) : Int := min (2 ^ 63 - 1) (max (-(2 ^ 63)) v)

/-- Q(k) before its format's limit (R154). -/
def CellAcc.net (a : CellAcc) : Int := ((a.qin / 65536 : Nat) : Int) - ((a.qout / 65536 : Nat) : Int)

/-- Q(k) in whole LSB, held at its format's limit (R154, R155). -/
def CellAcc.q (a : CellAcc) : Int := inFormat a.net

/-- The cell current of the last second in A, positive into the cell (R160). -/
def secondCurrent (a : CellAcc) : CellAcc := { a with qSec := a.q, iSec := some (((a.q - a.qSec : Int) : Rat) / 10000000) }

/-- Gathers a 1 ms mean towards the 1 s mean. -/
def gather (a : Rat × Nat) (v : Rat) : Rat × Nat := (a.1 + v, a.2 + 1)

/-- At each whole second: the 1 s means and the cell currents (R160, R204). -/
def takeSecond (s : State) : State :=
  let mean := fun (l : List (Rat × Nat)) (old : List Rat) => mapLvl old fun k v => let a := l.getD k (0, 0); meanOr a.1 a.2 v
  { s with
    meas := { s.meas with mean1s := mean s.meas.acc1s s.meas.mean1s, ins1s := mean s.meas.insAcc1s s.meas.ins1s,
                          acc1s := List.replicate 16 (0, 0), insAcc1s := List.replicate 16 (0, 0) }
    chg := { s.chg with cells := s.chg.cells.map secondCurrent } }

/-- What the fabric forms at each whole millisecond (R137, R150, R160, R161). -/
def takeMeans (s : State) : State :=
  let s := toInstant 6 1000000 0 s
  let m := s.meas
  let last := m.means.headD (List.replicate 16 0)
  let now := (List.range 16).map fun k => meanOr (m.vSum1.getD k 0) (m.vN1.getD k 0) (last.getD k 0)
  let ins := mapLvl m.insMean fun k v => let n := m.insN1.getD k 0; if n = 0 then v else some (m.insSum1.getD k 0 / (n : Rat))
  let s := compareCurrents s
  let s := checkSum now (suspectTaps (movedTaps s now) s)
  let acc1 := mapLvl s.meas.acc1s fun k a => gather a (now.getD k 0)
  let insAcc := mapLvl s.meas.insAcc1s fun k a => match ins.getD k none with | some v => gather a v | none => a
  let s : State := { s with meas := { s.meas with
    means := (now :: s.meas.means).take 10, insMean := ins, acc1s := acc1, insAcc1s := insAcc, shuntSum := 0, shuntN := 0, hallSum := 0, hallN := 0,
    vSum1 := List.replicate 16 0, vN1 := List.replicate 16 0, insSum1 := List.replicate 16 0, insN1 := List.replicate 16 0,
    stackSum := 0, stackN := 0 } }
  let s := if 1000 ≤ (s.meas.acc1s.getD 0 (0, 0)).2 then takeSecond s else s
  { s with chg := { s.chg with cells := mapLvl s.chg.cells (anchorStep s) } }

/-- CELL_MEANS_1MS: in Run and Watch (R137, R150, R160, R161). -/
def execCellMeans1ms (s : State) : Out := .next (if firmwareRuns s then takeMeans s else s)

/-! The stack channel (R138, R167) -/

/-- An event record of a source without an FSTAT bit (Table 15-4). -/
def plainEvent (ev k : Nat) (s : State) : State := eventRecord 0xFF ev k 0 false s

/-- The account of a cell whose span is disqualified; one of the ring time of a completion counts within the span that this completion
closed, which then leaves C(k) as it was (R165, log entry 160). -/
def CellAcc.disqualified (cause : BitVec 3) (atEnd : Bool) (a : CellAcc) : CellAcc :=
  if atEnd then
    match a.closing with
    | some c => { a with cap := c.1, capLearned := c.2.1, spanFirst := c.2.2, closing := none, dqCause := cause }
    | none => a
  else { a with spanOpen := false, spanDq := cause, dqCause := cause }

/-- Disqualifies the open span of cell k + 1 with its cause and an event record (R165). -/
def disqualify (cause : BitVec 3) (k : Nat) (s : State) : State :=
  let a := acc s k
  let atEnd := s.clk.ringKnown && s.clk.ring == a.spanAt
  if a.spanOpen && (!atEnd || a.closing.isSome) then
    count 93 <| plainEvent cause.toNat (k + 1)
      { s with chg := { s.chg with cells := s.chg.cells.modify k (CellAcc.disqualified cause atEnd) } }
  else s

/-- Disqualifies every open span of a present level (R15). -/
def disqualifyAll (cause : BitVec 3) (s : State) : State := (presentLevels s).foldl (fun st k => disqualify cause k st) s

/-- A fresh challenge begins an attempt, which holds bus A (R166, R167, Table 16-1). -/
def beginAttempt (s : State) : State :=
  if s.chg.attempt then s
  else
    let p := takeFree (count 83 s)
    { p.2 with chg := { p.2.chg with attempt := true, challenge := fitBytes 32 (Config.freeBytes p.1) },
               busA := { p.2.busA with held := true, polls := 0 } }

/-- The stack voltage decides on removal: below n × 1.5 V the pack is held to be removed; back above it a challenge follows (R167,
Table 7-5b). -/
def judgeStack (s : State) : State :=
  let lim : Rat := (cellCount s : Rat) * 3 / 2
  if cellCount s = 0 then s
  else if s.meas.stack < lim then
    if s.chg.removed then s
    else
      let s := endAnchors (disqualifyAll 3 s)
      plainEvent 8 0 { s with chg := { s.chg with removed := true, attemptDue := false }, eng := { s.eng with learned := List.replicate 16 none } }
  else if lim < s.meas.stack && s.chg.removed && !s.chg.attemptDue then beginAttempt { s with chg := { s.chg with attemptDue := true } }
  else s

/-- The next conversion of the stack channel: 20 kS/s in Run, at 50 us plus 25 us of ring time (R138, R151). -/
def stackInstant (s : State) : State := if s.clk.pstate = .run then toInstant 3 50000 25000 s else toInstant 3 1000000 0 s

/-- One conversion of the stack channel (R138): the stack less the path drop, or the ladder output; during a tap test only the ladder
output (R151). -/
def takeStackSample (microVolt inputMa : Int) (s : State) : State :=
  let p := injected 0x0122 (stackInstant s)
  let s := p.2
  let v : Rat := (trimmed s 18 microVolt + (p.1 : Rat)) / 1000000
  if s.meas.stackNext && !s.meas.tapTest then
    let st := v - (s.parN 0x040A : Rat) * (inputMa : Rat) / 1000000
    judgeStack { s with meas := { s.meas with stack := st, stackSum := s.meas.stackSum + st, stackN := s.meas.stackN + 1, stackNext := false } }
  else
    let n := s.meas.tapRun.map (· - 1)
    { s with meas := { s.meas with ladderOut := v, stackNext := true
                                   tapOut := match n with | some r => s.meas.tapOut ++ [(r, v)] | none => s.meas.tapOut } }

/-- STACK_SAMPLE: in Run and Watch (R138). -/
def execStackSample (microVolt inputMa : Int) (s : State) : Out :=
  .next (if s.clk.pstate = .run ∨ s.clk.pstate = .watch then (if streamsHeld s then discard (stackInstant s) else
      marked (offsetArmed [0x0122] s) (takeStackSample microVolt inputMa) s) else s)

/-! Switch drops (R139, R145) -/

/-- A bin after one more reading (R145); when the reading before it is older than the refresh age, the mean begins anew (log entry 53). -/
def binTake (s : State) (r : Rat) (b : Bin) : Bin :=
  let old := b.stamps.head?.all fun t => decide (t + sec (86400 * s.parN 0x0409) < s.clk.ring)
  let n := if old then 0 else b.count
  ⟨(b.ohm * (n : Rat) + r) / ((n : Rat) + 1), n + 1, (s.clk.ring :: if old then [] else b.stamps).take 256⟩

/-- A reading of the switch-drop channel in mV: 16 bits over 250 mV each way (R139). -/
def dropMv (s : State) (uv : Int) : Rat := clampRat (roundRat (trimmed s 19 uv * 32768 / 250000) : Int) (-32768) 32768 * 250 / 32768

/-- One slot of the switch-drop scan, 100,000 a second: the drop across the conducting switch of the next level that is not inside its own
window (R139); a reading counts once the current has stood in its bin for 60 s (R145). -/
def takeDropSlot (mask : BitVec 16) (microVolt : Int) (s : State) : State :=
  let s := paced 4 10000 0 s
  let order := (List.range 16).map fun i => (s.meas.dropSlot + i) % 16
  match order.find? fun k => present s k && !mask.getLsbD k with
  | none => { s with meas := { s.meas with dropSlot := (s.meas.dropSlot + 1) % 16 } }
  | some k =>
    let mv := dropMv s microVolt
    let i := absRat (stringA s)
    let ins := insertConducts s k
    let s := { s with meas := { s.meas with
      dropSlot := (k + 1) % 16
      dropInsert := if ins then s.meas.dropInsert.set k mv else s.meas.dropInsert,
      dropBypass := if ins then s.meas.dropBypass else s.meas.dropBypass.set k mv } }
    if binFor s i = s.meas.binIdx && since s s.meas.binSince (sec 60) && decide (0 < i) && !pointLost s 0x12 then
      let r := absRat mv * 1000 / i / (1 + (s.parN 0x0407 : Rat) / 10000 * (pointTemp s 0x12 - 25))
      let put := fun (l : List (List Bin)) => l.modify k fun bs => bs.modify s.meas.binIdx (binTake s r)
      { s with meas := { s.meas with binIn := if ins then put s.meas.binIn else s.meas.binIn,
                                     binBy := if ins then s.meas.binBy else put s.meas.binBy } }
    else s

/-- SWITCH_DROP_SLOT: in Run and Watch (R139, R145). -/
def execSwitchDropSlot (mask : BitVec 16) (microVolt : Int) (s : State) : Out :=
  .next (if s.clk.pstate = .run ∨ s.clk.pstate = .watch then (if streamsHeld s then discard (paced 4 10000 0 s) else takeDropSlot mask microVolt s) else s)

/-! NTC inputs (R140, R141, R284) -/

/-- The temperature of a ratio against the pull-up that TREF calibrates, by the B value (R140). -/
def ntcTemp (s : State) (ratio : Rat) : Rat :=
  let pull := (1 - s.meas.tref) / s.meas.tref
  let r := pull * ratio / (1 - ratio)
  1 / (100 / 29815 + lnRat r / (s.parN 0x0406 : Rat)) - 27315 / 100

/-- A reading stands inside a window by the hysteresis (R284). -/
def insideBy (lo hi : Int) (h : Nat) (t : Rat) : Bool := decide (((lo + h : Int) : Rat) ≤ t ∧ t ≤ ((hi - h : Int) : Rat))

/-- A reading stands inside a window. -/
def inside (lo hi : Int) (t : Rat) : Bool := decide ((lo : Rat) ≤ t ∧ t ≤ (hi : Rat))

/-- A window's withholding after a reading: withheld at once outside, returned after three readings inside by the hysteresis
(R284): the run of readings inside, and whether the limit is withheld. -/
def windowStep (lo hi : Int) (h : Nat) (t : Rat) (run : Nat) (out : Bool) : Nat × Bool :=
  let r := if insideBy lo hi h t then run + 1 else 0
  if !inside lo hi t then (0, true) else (r, out && decide (r < 3))

/-- The record of an input after a valid reading. -/
def ntcValid (s : State) (t : Rat) (n : Ntc) : Ntc :=
  let c := windowStep (s.par 0x0104) (s.par2 0x0104) (s.parN 0x0106) t n.inCh n.outCh
  let d := windowStep (s.par 0x0105) (s.par2 0x0105) (s.parN 0x0106) t n.inDis n.outDis
  let g := if n.faulted then n.good + 1 else 0
  { n with temp := some t, bad := 0, good := if 3 ≤ g then 0 else g, faulted := n.faulted && decide (g < 3), invalid := false,
           hot := if decide ((s.lad.guard.ot : Rat) < t) then n.hot + 1 else 0, inCh := c.1, outCh := c.2, inDis := d.1, outDis := d.2 }

/-- The cell an input is assigned to, if it is a fitted one (R18). -/
def ntcCell (s : State) (j : Nat) : Option Nat :=
  let p := s.par (0x0411 + j)
  if 1 ≤ p ∧ p ≤ 16 ∧ present s (p.toNat - 1) then some (p.toNat - 1) else none

/-- The guard parks the level of a faulted cell input with cause 0x5, also one that stands parked for a cause of another kind, which a start
would release; an anchor in progress ends (R141, Table 7-3). -/
def ntcPark (k : Nat) (s : State) : State :=
  let l := lvl s k
  if l.st == .retired || (l.st == .parked && guardCause l.cause) then s
  else if l.st == .parked then modLevel k (fun l => { l with cause := 0x5, clearedAt := none }) s
  else count 22 (parkLevel k 0x5 (endAnchorOf k s))

/-- Three consecutive invalid readings on a fitted cell's input, or one on another assigned input, fault it; the guard parks the
cell's level with cause 0x5 (R141). -/
def ntcInvalid (j : Nat) (s : State) : State :=
  let n := ntcRec s j
  let bad := n.bad + 1
  let cell := ntcCell s j
  let now := !n.faulted && ntcUsed s j && (if cell.isSome then decide (3 ≤ bad) else true)
  let s := { s with meas := { s.meas with ntc := s.meas.ntc.modify j fun n => { n with bad := bad, good := 0, invalid := true, faulted := n.faulted || now } } }
  if now then
    match cell with
    | some k => raise 20 .contained 0 (k + 1) (ntcPark k s)
    | none => raise 20 .contained 1 0 s
  else s

/-- One slot of the NTC scan, 10,000 a second in 16 bits: TREF in slot 0, then the inputs (R140). ratioPpm is the ratio in parts per million. -/
def takeNtcSlot (ratioPpm : Nat) (s : State) : State :=
  let s := paced 5 100000 0 s
  let r : Rat := (roundRat (trimmed s 20 ratioPpm * 65536 / 1000000) : Rat) / 65536
  let slot := s.meas.ntcSlot
  let s := { s with meas := { s.meas with ntcSlot := (slot + 1) % 25 } }
  if slot = 0 then (if 0 < r ∧ r < 1 then { s with meas := { s.meas with tref := r } } else s)
  else
    let j := slot - 1
    if r < 2 / 100 ∨ 98 / 100 < r then ntcInvalid j s
    else
      let was := ntcRec s j
      let n := ntcValid s (ntcTemp s r) was
      let s := { s with meas := { s.meas with ntc := s.meas.ntc.set j n } }
      match ntcCell s j with
      | some k =>
        let t := ntcTemp s r
        let s := if inside (s.par 0x0507) (s.par2 0x0507) t then s else disqualify 1 k s
        if (n.outCh && !was.outCh) || (n.outDis && !was.outDis) then raise 3 .none 0 (k + 1) s else s
      | none => s

/-- NTC_SLOT: in Run and Watch (R140). -/
def execNtcSlot (ratioPpm : Nat) (s : State) : Out :=
  .next (if s.clk.pstate = .run ∨ s.clk.pstate = .watch then (if streamsHeld s then discard (paced 5 100000 0 s) else takeNtcSlot ratioPpm s) else s)

/-! Corrections (R143, R144, R280) -/

/-- The regulators have their reference: the PLL runs in Run, and ring time is not lost (R259, R260). -/
def railReference (s : State) : Bool :=
  s.clk.pstate == .run && s.clk.pll && (s.clk.timeState == .synced || s.clk.timeState == .holdover)

/-- High-side turn-on of a channel after each multiple of its period, in periods of the 3.2 GHz clock: phase / (360 * f(sw)), placed to 312.5 ps
(R259). -/
def railEdge (phase fsw : Nat) : Nat := phase * 3200000 / (360 * fsw)

/-- One regulator at a 10 ms correction: a higher frequency is reached by at most 1 % per ms. A channel whose reference has changed since is pulled
into step until the next correction, with SLEW set, and is in step with it then (R259, R260; log entry 16). -/
def alignRail (ref : Bool) (setting phase : Nat) (high : Bool) (r : Rail) : Rail :=
  let goal := if high then min setting 1000 else setting
  let f := if goal ≤ r.fsw then goal else min goal (r.fsw + max 1 (r.fsw / 10))
  let on := r.st == .softStart || r.st == .regulating
  let pull := ref != r.sync && !r.slew
  { r with fsw := f, freqCap := high && decide (1000 < setting), sync := on && ref && !pull, slew := on && (f != goal || pull)
           edge := if on && ref then railEdge phase f else r.edge }

/-- Every regulator at a 10 ms correction. -/
def alignRails (s : State) : State :=
  let one := fun (x : Nat) (r : Rail) =>
    alignRail (railReference s) (100 * s.parN (0x0800 + 0x10 * x)) (s.parN (0x0804 + 0x10 * x)) (s.sup.band == 2) r
  { s with aux := { s.aux with rails := mapLvl s.aux.rails one } }

/-- The regulators' reference has changed: those that run leave alignment, and SLEW stands until the next correction (R260). -/
def slewRails (s : State) : State :=
  let one := fun (r : Rail) => if r.st == .softStart || r.st == .regulating then { r with sync := false, slew := true } else r
  { s with aux := { s.aux with rails := s.aux.rails.map one } }

/-- The valid readings of the control-die sensors nearest the 64 MHz RC [0.01 degC] (R280). -/
def nearRcValid (s : State) : List Rat :=
  ((s.flt.ctrl.zip s.flt.ctrlOut).zipIdx.filter fun p => !p.1.2 && Config.nearRc p.2).map fun p => (p.1.1 : Rat)

/-- The update of every 10 ms: the shunt's compensation follows its NTC or holds the last temperature with COMP_STALE (R144); the means of the
temperature sensors set the RC trim and the reference correction, held while the sensors used for them are excluded (R280); and in Run the RC's period
is measured against the PLL (R278). -/
def takeCorrection (rcPeriodPs : Nat) (s : State) : State :=
  let s := advanceTo (instantFrom (ms 10) 0 (s.clk.now + 1)) s
  let n := (ntcAt s 0x11).map (ntcRec s)
  let good := n.any fun n => !n.invalid && !n.faulted && n.temp.isSome
  let t := if good then (n.bind (·.temp)).getD s.meas.shuntT else s.meas.shuntT
  let r := (s.parN 0x0403 : Rat) / 100000000 * (1 + (s.par 0x0404 : Rat) / 1000000 * (t - 25))
  let near := nearRcValid s
  let power : List Rat := (powerValid s).map fun (c : Int) => (c : Rat)
  alignRails { s with
    meas := { s.meas with shuntT := t, shuntR := r, compBad := holdSince s.clk.now (!good) s.meas.compBad,
                          refCorr := if power.isEmpty then s.meas.refCorr else Config.refCorrection (sumRat power / (power.length : Rat)) }
    clk := { s.clk with rcTrim := if near.isEmpty then s.clk.rcTrim else Config.rcTrim (sumRat near / (near.length : Rat))
                        rcPs := if s.clk.pstate == .run && s.clk.pll && decide (0 < rcPeriodPs) then rcPeriodPs else s.clk.rcPs } }

/-- CORRECTION_UPDATE_10MS with the RC's period as the PLL measures it (R143, R144, R278, R280). -/
def execCorrectionUpdate10ms (rcPeriodPs : Nat) (s : State) : Out :=
  .next (if s.clk.pstate = .run ∨ s.clk.pstate = .watch then takeCorrection rcPeriodPs s else s)

/-! Tap tests (R151, R152) -/

/-- The levels beside a tap Cj: j and j + 1, as positions (R152). -/
def tapLevels (s : State) (j : Nat) : List Nat := [j - 1, j].filter fun k => present s k && decide (k + 1 = j ∨ k = j)

/-- Parks levels with the park command at the next period boundary; hold: a confirmed open tap keeps them parked (R98, R152). -/
def tapPark (hold : Bool) (ks : List Nat) (s : State) : State :=
  let m := BitVec.ofNat 16 (maskOf ((List.range 16).map ks.contains))
  let s := mapLevels (fun k l => if ks.contains k && hold then { l with tapPark := true } else l) s
  { s with lad := { s.lad with parkMask := s.lad.parkMask ||| m } }

/-- A tap of the levels' own that is open or still to be tested. -/
def tapBarred (s : State) (k : Nat) : Bool :=
  let t := s.meas.tapOpen ||| s.meas.tapRetest
  t.getLsbD k || t.getLsbD (k + 1)

/-- A tap that has passed its open-wire test ends the hold of the levels parked for it, once no tap of theirs is open or to be tested. In a
start those levels are released with it, but for what still holds them (R98, R152). -/
def releaseTaps (j : Nat) (s : State) : State :=
  let hit := fun (k : Nat) => (tapLevels s j).contains k && (lvl s k).tapPark && !tapBarred s k
  let s := mapLevels (fun k l => if hit k then { l with tapPark := false } else l) s
  let go := s.lad.adm != .out
  mapLevels (fun k l => if hit k && go && releasable s k then { l with st := .bypassed, bypGate := l.bsOk } else l) s

/-- The mean of the ladder-output samples of the tests from one period to another. -/
def outMean (s : State) (a b : Nat) : Option Rat :=
  match (s.meas.tapOut.filter fun p => decide (a ≤ p.1 ∧ p.1 < b)).map (·.2) with
  | [] => none
  | l => some (sumRat l / (l.length : Rat))

/-- The true loaded voltage that the insertion-difference test gives for its i-th level k: the difference of the two means, with the drops
of the insert switch that was in the path and of the bypass switch that it replaced (R139, R151). -/
def testedV (s : State) (i k : Nat) : Option Rat :=
  match outMean s (20 * i) (20 * i + 10), outMean s (20 * i + 10) (20 * i + 20) with
  | some a, some b => some (b - a + (s.meas.dropInsert.getD k 0 + s.meas.dropBypass.getD k 0) / 1000)
  | _, _ => none

/-- The levels of the tests whose loaded reading differs from the test by more than 20 mV (R151, log entry 154); a level that has been parked or
retired during its test is skipped (R151). -/
def disagreeing (s : State) : List Nat :=
  (s.meas.tapPlan.zipIdx.filter fun p => (lvl s p.1).st != .parked && (lvl s p.1).st != .retired &&
    match testedV s p.2 p.1, (stepRec s p.1).vIns with
    | some v, some r => decide (2 / 100 < absRat (v - r.1))
    | _, _ => false).map (·.1)

/-- The tests of a suspect tap have run: in Run those of its levels and 500 us of open-wire current, in Watch the current alone (R151). -/
def testsRun (s : State) (tap : Nat) : Bool :=
  s.meas.owtTap == some tap && (s.clk.pstate == .watch || s.meas.tapRun.any fun r => decide (20 * s.meas.tapPlan.length + 50 ≤ r))

/-- The tests of a suspect tap are complete and its finding is classified (Table 6-8): the open-wire test has moved the tap by so many
uV. A tap moved by more than 20 mV is open, and one whose levels disagree with their readings while the sum agrees has a high resistance:
TAP_OPEN, and both levels are parked. A level that disagrees with the sum off is a cell channel fault and is parked alone. LEVEL of the event
record is the tap's number for a tap, and the level for a cell channel fault (DESIGN CHOICE, log entry 185). -/
def completeTaps (tap : Nat) (moveUv : Int) (s : State) : State :=
  if !s.meas.suspects.contains tap || !testsRun s tap then s
  else
    let s := if s.clk.pstate = .watch then advanceTo (s.clk.now + us 500) s else s
    let off := disagreeing s
    let isOpen := decide (20000 < moveUv.natAbs) || (!off.isEmpty && !s.meas.sumFail)
    let left := s.meas.suspects.filter (· != tap)
    let s := { s with meas := { s.meas with suspects := left, owtTap := if s.clk.pstate = .watch then left.head? else none, tapRun := none, tapPlan := [], tapOut := [], tapTest := !left.isEmpty,
                                            tapRetest := s.meas.tapRetest &&& ~~~(BitVec.ofNat 17 (2 ^ tap)) } }
    if isOpen then
      let s := writeMram { s with meas := { s.meas with tapOpen := s.meas.tapOpen ||| BitVec.ofNat 17 (2 ^ tap) } }
      raise 22 .contained 0 tap (tapPark true (tapLevels s tap) s)
    else if !off.isEmpty then raise 22 .contained 1 (off.headD 0 + 1) (tapPark false off s)
    else releaseTaps tap s

/-- TAP_TESTS_COMPLETE: in Run and Watch (R151, R152). -/
def execTapTestsComplete (tap : Fin 17) (moveUv : Int) (s : State) : Out :=
  .next (if s.clk.pstate = .run ∨ s.clk.pstate = .watch then completeTaps tap.val moveUv s else s)

end Sys2Proof.Machine
end

