-- ==== Sys2Proof/Machine/Charge.lean ====
section
/-! DEFINITION. Charge accounting and the cell pack (07_charge_and_capacity.md): the integrator, state of charge, anchors, spans, and
the pack's token. -/

namespace Sys2Proof.Machine

/-! The integrator (R153 to R156) -/

/-- Rounds a charge of current i [A] over t steps of 312.5 ps to 2^-16 LSB, ties to even (R153): 1 A over 0.5 us is 5 LSB. -/
def chargeOf (i : Rat) (t : Nat) : Int := roundEven (i * 327680 * (t : Rat) / 1600)

/-- Whole LSB of a signed counter. -/
def wholeLsb (v : Int) : Int := v / lsb

/-- P(k) = S + Q(k), from whole LSB, held at its format's limit (R154, R155). -/
def passed (s : State) (a : CellAcc) : Int := inFormat (wholeLsb s.chg.sNet + a.q)

/-- Q(k) or P(k) of a present cell would pass its format's limit (R155). -/
def signedAtLimit (s : State) : Bool :=
  (presentLevels s).any fun k => (acc s k).net != (acc s k).q || passed s (acc s k) != wholeLsb s.chg.sNet + (acc s k).q

/-- The account of a cell after one interval of mean current i, inserted for t steps (R154), and whether a counter was limited. -/
def cellInterval (i : Rat) (t : Nat) (bad : Bool) (a : CellAcc) : CellAcc × Bool :=
  let q := chargeOf i t
  let o := satGross (a.qout + q.toNat)
  let n := satGross (a.qin + (-q).toNat)
  ({ a with qout := o.1, qin := n.1, srcTime := if bad && a.spanStarted then a.srcTime + 500 else a.srcTime }, o.2 || n.2)

/-- One interval applied to every counter (R154): S by c(i), each present cell by q(k,i), and B when no level was inserted. -/
def integrate (i : Rat) (tins : List Nat) (s : State) : State :=
  let s := rollStreams s
  let c := chargeOf i 1600
  let on := fun (k : Nat) => if present s k then min 1600 (tins.getD k 0) else 0
  let none_ := (List.range 16).all fun k => on k == 0
  let bad := s.meas.shuntFail || s.chg.clkRc || s.meas.compBad.isSome
  let net := satSigned (s.chg.sNet + c)
  let by_ := if none_ then satSigned (s.chg.bNet + c) else (s.chg.bNet, false)
  let cells := mapLvl s.chg.cells fun k a => cellInterval i (on k) bad a
  let s : State := { s with
    chg := { s.chg with sNet := net.1, bNet := by_.1, cells := cells.map (·.1),
                        sat := s.chg.sat || net.2 || by_.2 || cells.any (·.2) }
    eng := { s.eng with qStep := mapLvl s.eng.qStep fun k q => q + chargeOf i (on k), cStep := s.eng.cStep + c
                        fast := s.eng.fast.addCharge (fun k => chargeOf i (on k)) c, slow := s.eng.slow.addCharge (fun k => chargeOf i (on k)) c } }
  { s with chg := { s.chg with sat := s.chg.sat || signedAtLimit s } }

/-- Integrates the held intervals of a range change against the straight line from current a to current b, part j of m (R135). -/
def integrateLine (a b : Rat) (m : Nat) : List (List Nat × Bool) → Nat → State → State
  | [], _, s => s
  | t :: ts, j, s => integrateLine a b m ts (j + 1) (integrate (a + (b - a) * ((2 * j + 1 : Nat) : Rat) / ((2 * m : Nat) : Rat)) t.1 s)

/-- The integrator counts: in Run and Watch, while the string current passes the shunt (R17, R156, Table 7-2). -/
def counting (s : State) : Bool := !s.lad.sby && !s.chg.latched && (s.clk.pstate == .run || s.clk.pstate == .watch)

/-- The charge of the coarse integrator, from the first crossing of the wake threshold until hardware fine integration has started, goes to S
and B: no cell is in the string (R55, Table 7-2; log entry 25). -/
def addCoarse (s : State) : State :=
  if s.clk.coarseOn then
    let c := roundEven (s.chg.coarseQ * 655360000000)
    let net := satSigned (s.chg.sNet + c)
    let by_ := satSigned (s.chg.bNet + c)
    { s with chg := { s.chg with sNet := net.1, bNet := by_.1, sat := s.chg.sat || net.2 || by_.2 }, clk := { s.clk with coarseOn := false } }
  else s

/-- One integration interval of 0.5 us (R153 to R156), which also enters the insertion record of the period (R117, R120). The states of
a held interval wait for the first valid sample (R135). inserted: t(ins,k,i) in steps of 312.5 ps. -/
def takeInterval (inserted : List Nat) (s : State) : State :=
  let s := { s with chg := { s.chg with clkRc := !s.clk.pll }
                    mod := { s.mod with tauNow := mapLvl s.mod.tauNow fun k t => t + ((min 1600 (inserted.getD k 0) : Nat) : Rat) / 32000 } }
  let i := stringA s
  if !counting s then { s with chg := { s.chg with lastI := none, heldTins := [] } }
  else
    let s := addCoarse s
    match s.chg.lastI with
    | none => { s with chg := { s.chg with lastI := some i } }
    | some a =>
      let l := s.chg.heldTins ++ [(inserted, true)]
      if s.meas.held then { s with chg := { s.chg with heldTins := l } }
      else
        let s := integrateLine a i l.length l 0 s
        { s with chg := { s.chg with lastI := some i, heldTins := [] } }

/-- INTEGRATION_INTERVAL (R154). -/
def execIntegrationInterval (inserted : List Nat) (s : State) : Out := .next (takeInterval inserted s)

/-! State of charge (R158, R159) -/

/-- C(k) in LSB of 100 nC: 1 mAh is 36,000,000 LSB. -/
def capLsb (a : CellAcc) : Rat := a.cap * 36000000

/-- s(k) from the most recent anchor only; none while unanchored (R158, R159). -/
def socOf (a : CellAcc) : Option Rat :=
  let useFull := a.full.valid && (!a.empty.valid || decide (a.empty.time < a.full.time))
  if a.cap = 0 then none
  else if useFull then some (100 + ((a.q - a.full.q : Int) : Rat) / capLsb a * 100)
  else if a.empty.valid then some (((a.q - a.empty.q : Int) : Rat) / capLsb a * 100)
  else none

/-- Recomputes s(k), and disqualifies open spans that have run too long, or too long on Hall, on the RC or on held compensation (R158,
Table 7-4). -/
def updateSoc (s : State) : State :=
  let s := advanceTo (instantFrom (ms 10) 0 (s.clk.now + 1)) s
  let s := { s with chg := { s.chg with cells := s.chg.cells.map fun a => { a with soc := socOf a } } }
  (List.range 16).foldl (fun st k =>
    let a := acc st k
    if a.spanOpen && decide (a.spanAt + 3600 * st.parN 0x0509 * sec 1 < st.clk.ring) then disqualify 4 k st
    else if a.spanOpen && decide (sec 10 < a.srcTime) then disqualify 6 k st
    else st) s

/-- SOC_UPDATE: in Run and Watch (R51, R158). -/
def execSocUpdate (s : State) : Out := .next (if firmwareRuns s then updateSoc s else s)

/-! The periodic commit (R157) -/

/-- The counter group of a commit; final: the final counter record of a hold-up (R156, R157). -/
def counterGroup (final : Bool) (s : State) : JItems :=
  { JItems.reset with counters := some (counterItems s), accounts := some s.chg.cells, cut := some final }

/-- Every 10 s in Run the counters and residues are committed, and with them what waits for a commit; a commit that may not begin, or for which there is no room, is skipped
and retried at the next 10 s (R157, R286, R351). -/
def commitCounters (s : State) : State :=
  let s := advanceTo s.chg.commitAt s
  let s := { s with chg := { s.chg with commitAt := s.clk.now + sec 10 } }
  if !canWrite s then s
  else if !hasRoom s (itemBytes s (counterGroup false s)) then journalRefused s
  else payOwed (writeBehind 0x2 (counterGroup false s) s)

/-- COUNTER_COMMIT: in Run (R157). -/
def execCounterCommit (s : State) : Out := .next (if s.clk.pstate = .run && !inWarmReset s then commitCounters s else s)

/-! Anchors and spans (R160 to R165) -/

/-- A span of a cell closed by an anchor of the opposite end: the capacity after it, or the cause that disqualifies it (R164, R165). Where
several hold, the first of 0x2, 0x4, 0x6, 0x5 is recorded (DESIGN CHOICE, log entry 159). -/
def judgeSpan (s : State) (k : Nat) : Except (BitVec 3) Rat :=
  let a := acc s k
  let meas := ((a.q - a.spanQ).natAbs : Rat) / 36000000
  let dur : Rat := ((s.clk.ring - a.spanAt : Nat) : Rat) / 3600000000000
  let lo : Rat := s.par 0x050C
  let hi : Rat := s.par2 0x050C
  if decide (0 < dur) && decide ((s.parN 0x0508 : Rat) * 5 / 100 * (s.parN 0x050B : Rat) < meas / dur) then .error 2
  else if (s.parN 0x0509 : Rat) < dur then .error 4
  else if sec 10 < a.srcTime then .error 6
  else if meas * 100 < lo * a.cap ∨ hi * a.cap < meas * 100 then .error 5
  else .ok (if !a.spanFirst then a.cap + (s.parN 0x050A : Rat) * 5 / 100 * (meas - a.cap) else meas)

/-- Closes the span of cell k + 1 at the completion of the opposite anchor (R164, R165); what it replaces is kept for an event of the same
ring time. -/
def closeSpan (k : Nat) (s : State) : State :=
  if !(acc s k).spanOpen then s
  else
    match judgeSpan s k with
    | .error c => disqualify c k s
    | .ok cap => { s with chg := { s.chg with cells := s.chg.cells.modify k fun a =>
        { a with cap := cap, capLearned := true, spanFirst := false, closing := some (a.cap, a.capLearned, a.spanFirst) } } }

/-- Opens a span at a completed anchor (R164). -/
def CellAcc.openSpan (full : Bool) (ring : Nat) (a : CellAcc) : CellAcc :=
  { a with spanOpen := true, spanStarted := true, spanFull := full, spanAt := ring, spanQ := a.q, spanDq := 0, srcTime := 0 }

/-- An anchor of cell k + 1 completes at this instant: its counter value and time are stored, provisional while the token is lost; the
span of the opposite end closes and a new one opens (R160, R162, R164). -/
def completeAnchor (k : Nat) (full : Bool) (s : State) : State :=
  let a := acc s k
  let s := { s with chg := { s.chg with cells := s.chg.cells.modify k fun a => { a with closing := none } } }
  let s := if a.spanStarted && a.spanFull != full then closeSpan k s else s
  let an : Anchor := ⟨a.q, s.clk.ring, true⟩
  let lost := s.chg.tokenLost
  let kind : AnchorRun := if full then .full else .empty
  let f := fun (a : CellAcc) =>
    let a := { a.endAnchor with full := if full then an else a.full, empty := if full then a.empty else an,
                                provisional := if lost then some kind else a.provisional }
    a.openSpan full s.clk.ring
  let s := count 92 { s with chg := { s.chg with cells := s.chg.cells.modify k f } }
  commitAccounts s

/-- The string current has reversed against a running anchor (Table 7-3). -/
def reversed (s : State) (a : CellAcc) : Bool := (a.running == .full && !s.mod.charge) || (a.running == .empty && s.mod.charge)

/-- The next frame boundary at or after a ring time (R107). -/
def nextFrame (s : State) (t : Nat) : Nat := instantFrom (10000 * max 1 s.mod.frameLen) 0 t

/-- ANCHOR_HOLD_EXPIRY: the hold conditions have held for t(F) or t(E), and the anchor completes at the first frame boundary at which
they have; a full anchor only while the string charges, an empty one only while it discharges (R160, R161). -/
def anchorHoldExpiry (k : Nat) (s : State) : State :=
  let a := acc s k
  match a.holdSince with
  | none => s
  | some t =>
    if a.running == .none || s.clk.pstate != .run || inWarmReset s then s
    else if reversed s a then endAnchorOf k s
    else
      let full := a.running == .full
      let due := t + sec (s.parN (if full then 0x0502 else 0x0505))
      completeAnchor k full (advanceRing (nextFrame s (max due s.clk.ring)) s)

/-- ANCHOR_HOLD_EXPIRY (R160, R161, R164). -/
def execAnchorHoldExpiry (level : Lvl) (s : State) : Out := .next (anchorHoldExpiry level.val s)

/-- ANCHOR_END: a reversal, or a current below the window for 10 s, ends the anchor without completing it (R162). -/
def anchorEnd (k : Nat) (s : State) : State :=
  let a := acc s k
  if a.running == .none then s
  else if reversed s a then endAnchorOf k s
  else
    match a.lowSince with
    | some t => endAnchorOf k (advanceTo (t + sec 10) s)
    | none => s

/-- ANCHOR_END (R162). -/
def execAnchorEnd (level : Lvl) (s : State) : Out := .next (anchorEnd level.val s)

/-- The taper limit of a running anchor after one frame: an integral law on the voltage error, never below zero (R160). Its gain is not
stated (log entry 14). -/
def taperStep (s : State) (k : Nat) (a : CellAcc) : CellAcc :=
  match a.running, a.taper, s.meas.insMean.getD k none with
  | .full, some t, some v => { a with taper := some (maxRat 0 (t + Config.taperGain * (anchorVolts s true - v))) }
  | .empty, some t, some v => { a with taper := some (maxRat 0 (t + Config.taperGain * (v - anchorVolts s false))) }
  | _, _, _ => a

/-! The cell pack (R166 to R168, Table 7-5b) -/

/-- Anchors cleared, with any provisional completion discarded; an anchor in progress ends (Table 7-5b, Table 7-3). -/
def CellAcc.clearAnchors (a : CellAcc) : CellAcc :=
  { a.endAnchor with full := Anchor.reset, empty := Anchor.reset, provisional := none, soc := none }

/-- C(k) set to nominal (Table 7-5b). -/
def CellAcc.toNominal (nominal : Rat) (a : CellAcc) : CellAcc := { a with cap := nominal, capLearned := false }

/-- Takes the binding values of every cell (R168). -/
def takeBinding (id : BitVec 64) (s : State) : State :=
  let bind := fun (a : CellAcc) => { a with qb := a.q, pb := passed s a, spanOpen := false, spanStarted := false, spanFirst := true }
  { s with
    chg := { s.chg with packId := id, bound := true, bindTime := s.clk.ring, cells := s.chg.cells.map bind }
    eng := { s.eng with plated := List.replicate 16 0 } }

/-- A pack with another ID: anchors cleared, C(k) nominal, binding values taken, learned sets cleared (Table 7-5b, R180). -/
def swapPack (id : BitVec 64) (s : State) : State :=
  let s := disqualifyAll 3 s
  let nom : Rat := (s.parN 0x050B : Rat)
  let s := { s with chg := { s.chg with cells := s.chg.cells.map fun a => a.clearAnchors.toNominal nom },
                    eng := { s.eng with learned := List.replicate 16 none } }
  takeBinding id s

/-- A pack refitted after removal: admission is needed again, and a shelf that was admitted or starting parks its levels (Table 7-5b; log
entry 137). -/
def refitPack (id : BitVec 64) (s : State) : State :=
  let s := if s.chg.bound && id == s.chg.packId then
      takeBinding id { s with chg := { s.chg with cells := s.chg.cells.map CellAcc.clearAnchors } }
    else swapPack id s
  if s.lad.adm == .out then endAdmission s else parkAll 0x1 s

/-- The token state as PACK_INFO codes it (Table 14-6). -/
def TokenState.code : TokenState → Nat
  | .absent => 0 | .valid => 1 | .lost => 2 | .invalid => 3

/-- The attempt ends: bus A is released, and every PACK_AUTH that waits is done (R383, R324). -/
def releaseAttempt (s : State) : State :=
  let t := s.chg.token.code
  let s := histFree 6 s
  { s with
    chg := { s.chg with attempt := false }
    busA := { s.busA with held := false, polls := 0 }
    host := { s.host with running := s.host.running.map fun r =>
      if r.opcode = 0x0503 ∧ r.done = false then { r with status := 0x00, reply := leBytes 1 t, done := true } else r } }

/-- TOKEN_LOST is set, with its event (R167). -/
def loseToken (s : State) : State :=
  raise 6 .contained 0 0 { s with chg := { s.chg with tokenLost := true, token := if s.chg.token == .absent then .absent else .lost } }

/-- A read of the token without a valid answer: the second in a row sets TOKEN_LOST with an event record (R167). -/
def tokenMissed (s : State) : State :=
  let n := s.chg.misses + 1
  let s := { s with chg := { s.chg with misses := n } }
  if 2 ≤ n ∧ s.chg.tokenLost = false then loseToken s else s

/-- A valid response (Table 7-5b); the binding is journalled, at the next commit that may begin where none may now (R42, R168). -/
def packValid (id : BitVec 64) (s : State) : State :=
  let s := if s.chg.removed then refitPack id s
    else if s.chg.bound && id == s.chg.packId then { s with chg := { s.chg with cells := s.chg.cells.map fun a => { a with provisional := none } } }
    else swapPack id s
  let s := { s with
    chg := { s.chg with token := .valid, tokenLost := false, misses := 0, lastAuth := s.clk.ring, removed := false, attemptDue := false }
    clk := { s.clk with authDone := true }
    key := { s.key with packAuthDue := none } }
  commitItems 0x1 { JItems.reset with accounts := some s.chg.cells, pack := some (s.chg.packId, s.chg.bound, s.chg.bindTime) } s

/-- An invalid response (Table 7-5b): at a start none is bound and the shelf is not admitted; in service it is fatal, and the levels are
parked one by one (R290). Open spans are disqualified with cause 0x3 (DESIGN CHOICE, log entry 186: Table 7-4 names no cause for it). -/
def packInvalid (s : State) : State :=
  let inService := s.clk.authDone
  let s := disqualifyAll 3 s
  let s := { s with chg := { s.chg with token := .invalid, cells := s.chg.cells.map CellAcc.clearAnchors } }
  if inService then
    let nom : Rat := (s.parN 0x050B : Rat)
    let s := { s with chg := { s.chg with cells := s.chg.cells.map (CellAcc.toNominal nom) } }
    raiseWith 6 .fatal 2 0 false true s
  else raise 6 .contained 1 0 { s with chg := { s.chg with bound := false } }

/-- The response that the secure partition expects: HMAC-SHA-256 under the pack key over the challenge and the pack ID, its first 16
bytes (R166); none without a pack key. -/
def expectedResponse (s : State) (id : BitVec 64) : Option (List Byte) :=
  s.key.packKey.map fun k => (hmac k (s.chg.challenge ++ bvBytes 8 id)).take 16

/-- An attempt ends with what the token answered: its pack ID and response, or nothing. An attempt not yet begun begins here, with a
fresh challenge (R166, R167, R383). -/
def endAttempt (answer : Option (BitVec 64 × List Byte)) (s : State) : State :=
  let s := beginAttempt s
  releaseAttempt (match answer with
    | none => tokenMissed (count 84 s)
    | some p => if expectedResponse s p.1 = some (fitBytes 16 p.2) then packValid p.1 s else packInvalid (count 84 s))

/-- What a token answers on bus A: nothing while the block is gated, or while SCL stands low (R317, R379, R381). -/
def busAnswer {α : Type} (s : State) (answer : Option α) : Option α :=
  if s.host.gates.getD 1 0 = 0 ∧ s.busA.sclStuck = false then answer else none

/-- PACK_AUTH_ATTEMPT: bus A runs in Watch and Run only (R166, R167, R383). -/
def execPackAuthAttempt (answer : Option (BitVec 64 × List Byte)) (s : State) : Out :=
  .next (if firmwareRuns s then endAttempt (busAnswer s answer) s else s)

/-- The periodic read of the token's pack ID (R167): two misses set TOKEN_LOST; an answer while it is set, another ID, or a removal with
the stack back starts a fresh challenge. -/
def takeToken (answer : Option (BitVec 64)) (s : State) : State :=
  if s.chg.attempt then s
  else
    match answer with
    | none => tokenMissed (if s.chg.removed && s.chg.attemptDue then beginAttempt s else s)
    | some id =>
      let due := s.chg.tokenLost || !s.chg.bound || id != s.chg.packId || (s.chg.removed && s.chg.attemptDue)
      let s := { s with chg := { s.chg with misses := 0 } }
      if due then beginAttempt s else s

/-- TOKEN_READ: in Watch and Run (R167). -/
def execTokenRead (answer : Option (BitVec 64)) (s : State) : Out :=
  .next (if firmwareRuns s then takeToken (busAnswer s answer) s else s)

end Sys2Proof.Machine
end

