-- ==== Sys2Proof/Machine/AccountCmd.lean ====
section
/-! DEFINITION. The accounting commands, group 0x05 (R169, R324). -/

namespace Sys2Proof.Machine

/-- s(k) as an account reports it: signed, LSB 0.001 %, 0x80000000 while invalid (Table 7-5c); rounded to the nearest (DESIGN CHOICE, log
entry 163). -/
def socBytes (v : Option Rat) : List Byte :=
  match v with
  | some x => leInt 4 (min 2147483647 (max (-2147483647) (roundRat (x * 1000))))
  | none => [0x00, 0x00, 0x00, 0x80]

/-- The account record of cell k + 1 (Table 7-5c); CAP is C(k) rounded to the nearest mAh (DESIGN CHOICE, log entry 163). -/
def accountRecord (s : State) (k : Nat) : List Byte :=
  let a := acc s k
  leInt 8 a.q ++ leBytes 8 (a.qin / 65536) ++ leBytes 8 (a.qout / 65536) ++ leInt 8 (passed s a)
  ++ leInt 8 (if a.full.valid then a.full.q else 0) ++ leInt 8 (if a.empty.valid then a.empty.q else 0) ++ leInt 8 a.qb
  ++ leBytes 8 a.full.time ++ leBytes 8 a.empty.time ++ leBytes 4 (reportNat 32 a.cap) ++ socBytes a.soc
  ++ bvBytes 8 s.chg.packId ++ leInt 8 (wholeLsb s.chg.sNet) ++ leInt 8 (wholeLsb s.chg.bNet) ++ leBytes 2 (accountWord s k)
  ++ leBytes 1 (k + 1) ++ leBytes 5 0

/-- The records of every present cell, in the order of the levels; an absent one has none (R15, R169). -/
def takeLatch (s : State) : AccLatch :=
  ⟨s.clk.ring, (List.range 16).map fun k => if present s k then accountRecord s k else []⟩

/-- CELL_ACCOUNT as a state change (Table 14-6). -/
def cellAccountOp (req : Req) (first latch : Byte) (s : State) : State :=
  runCommand req 0x0501 (.atLevel .monitor) (fun s =>
    if first = 0 ∨ 16 < first.toNat ∨ present s (first.toNat - 1) = false ∨ 1 < latch.toNat then answer req 0x0501 0x11 [] s
    else
      let s := if latch = 1 then modMail req.mb (fun m => { m with latch := some (takeLatch s) }) s else s
      match (mail s req.mb).latch with
      | none => answer req 0x0501 0x12 [] s
      | some l => answer req 0x0501 0x00 (leBytes 8 l.time ++ (((l.records.drop (first.toNat - 1)).filter (· ≠ [])).take 2).flatten) s) s

/-- CELL_ACCOUNT (R169, R324). -/
def execCellAccount (req : Req) (first latch : Byte) (s : State) : Out := .next (cellAccountOp req first latch s)

/-- PACK_INFO as a state change (Table 14-6). -/
def packInfoOp (req : Req) (s : State) : State :=
  runCommand req 0x0502 (.atLevel .monitor) (reply req 0x0502 fun s =>
    bvBytes 8 s.chg.packId ++ leBytes 8 s.chg.bindTime ++ leBytes 1 s.chg.token.code ++ leBytes 8 s.chg.lastAuth) s

/-- PACK_INFO (R324). -/
def execPackInfo (req : Req) (s : State) : Out := .next (packInfoOp req s)

/-- PACK_AUTH as a state change: it starts an attempt, whose end is its final response (Table 14-6). -/
def packAuthOp (req : Req) (s : State) : State :=
  runCommand req 0x0503 (.atLevel .operator) (fun s =>
    if s.chg.attempt then answer req 0x0503 0x02 [] s else beginAttempt (accept req 0x0503 0x01 [] s)) s

/-- PACK_AUTH (R324). -/
def execPackAuth (req : Req) (s : State) : Out := .next (packAuthOp req s)

end Sys2Proof.Machine
end

