-- ==== Sys2Proof/Machine/ConfigCmd.lean ====
section
/-! DEFINITION. The configuration commands, group 0x02 (R318 to R321, R405), and what a commit does. -/

namespace Sys2Proof.Machine

/-- The levels that count as fitted while the cell count is 0 (R18). -/
def fittedNow (s : State) : List Nat := (List.range 16).filter fun k => (lvl s k).bsOk

/-- The MODEL_IDs of the files in the staged and the active slot (R176, Table 8-8). -/
def filesNow (s : State) : List Nat :=
  ([s.nv.fileStaged, s.nv.fileActive].filter (· ≠ [])).map fun m => fileField m 8 8

/-- CFG_STAGE as a state change: the records before the first failing one stay staged, and an ID staged anew is replaced (R320). -/
def cfgStageOp (req : Req) (records : List Byte) (s : State) : State :=
  runChecked req 0x0201 (.atLevel .service) (decide (5 ≤ records.length ∧ records.length ≤ 244)) true (fun s =>
    let r := stageRecords s.cfg.params (fittedNow s) (filesNow s) false 128 61 records (mail s req.mb).staged 0
    let s := modMail req.mb (fun m => { m with staged := r.1 }) s
    match r.2.2 with
    | none => answer req 0x0201 0x00 (leBytes 1 r.2.1 ++ leBytes 2 0) s
    | some .badField => answer req 0x0201 0x11 (leBytes 1 r.2.1 ++ leBytes 2 (r.2.1 + 1)) s
    | some .badState => answer req 0x0201 0x12 (leBytes 1 r.2.1 ++ leBytes 2 (r.2.1 + 1)) s) s

/-- CFG_STAGE (R318, R320). -/
def execCfgStage (req : Req) (records : List Byte) (s : State) : Out := .next (cfgStageOp req records s)

/-! Model files at a commit (R175, R176) -/

/-- The CRC over all bytes but the last four holds (R175); where LENGTH exceeds the slot the length itself is refused. -/
def fileCrcOk (m : Memory) : Bool :=
  let len := fileField m 16 4
  decide (262144 < len) || decide (4 ≤ len) && bvBytes 4 (crc32c (readBytes 0 (len - 4) m)) == readBytes (len - 4) 4 m

/-- Every parameter of a file lies within the bounds that its template declares; neither the layout of the records nor the bounds are in the
spec (R175, log entry 10). -/
def fileParsOk (m : Memory) : Bool :=
  (List.range (fileField m 32 2)).all fun i =>
    let v := (Config.fileParam m i).1
    let b := Config.paramBounds m i
    decide (b.1 ≤ v ∧ v ≤ b.2)

/-- The header fields and the parameters of R175. -/
def fileFieldsOk (mode : Int) (m : Memory) : Bool :=
  let t := fileField m 6 2
  fileParsOk m &&
  fileField m 0 4 == 0x47554C46 && fileField m 4 2 == 0x0003 && decide (fileField m 16 4 ≤ 262144)
  && (mode == 0 || (t.testBit 1 && t.testBit 2 && (mode == 1 || t.testBit 0)))

/-- The first MRAM page of the active and of the staged file slot (R176, Table 15-1). -/
def filePage (staged : Bool) : Nat := if staged then 0x1400 else 0x1000

/-- A file with an uncorrectable group reads as CRC failed (Table 15-2). -/
def fileGood (s : State) (staged : Bool) : Bool :=
  fileCrcOk (if staged then s.nv.fileStaged else s.nv.fileActive)
  && !s.nv.badPages.any fun p => decide (filePage staged ≤ p ∧ p < filePage staged + 1024)

/-- The file of a MODEL_ID: the staged slot (true) or the active one. -/
def fileNamed (s : State) (id : Int) : Option Bool :=
  if (fileField s.nv.fileStaged 8 8 : Int) = id ∧ s.nv.fileStaged ≠ [] then some true
  else if (fileField s.nv.fileActive 8 8 : Int) = id ∧ s.nv.fileActive ≠ [] then some false
  else none

/-- The refusal of a commit that names a model file: BAD_CRC or BAD_FIELD (R175, R325). -/
def modelRefusal (s : State) (staged : List ParamRec) : Option Byte :=
  match staged.find? (·.id == 0x060E) with
  | none => none
  | some p =>
    let id := p.vals.getD 0 0
    if id = 0 then none
    else
      match fileNamed s id with
      | none => some 0x11
      | some st =>
        let m := if st then s.nv.fileStaged else s.nv.fileActive
        if !fileGood s st then some 0x13
        else if !fileFieldsOk ((paramIn (overlay s.cfg.params staged) 0x0600).getD 0 0) m then some 0x11
        else none

/-- The first commit that names a model file makes it active, initialises every tile and clears the learned sets; 0 names none, and a file
that is active already stays as it is (R176). -/
def activateModel (staged : List ParamRec) (s : State) : State :=
  match staged.find? (·.id == 0x060E) with
  | none => s
  | some p =>
    let id := p.vals.getD 0 0
    let new := id != 0 && fileNamed s id == some true && s.nv.fileStaged != s.nv.fileActive
    let was := s.par 0x060E
    let s := if new then
        { s with nv := { s.nv with fileActive := s.nv.fileStaged, badPages := s.nv.badPages.filter fun p => !decide (0x1000 ≤ p ∧ p < 0x1400) } }
      else s
    let s := { s with cfg := { s.cfg with effective := putParam p s.cfg.effective } }
    if id = 0 ∨ (!new ∧ was = id) then s else initTiles { s with eng := { s.eng with learned := List.replicate 16 none } }

/-! Effect points (R321) -/

/-- Parameters whose values take effect at a point of their own: the frame length (R107), and mode, members and step rate (R199). -/
def deferredIds : List Nat := [0x0320, 0x0600, 0x0601, 0x0602]

/-- The values in force with those of the IDs chosen taken from the committed set. -/
def takeWhere (f : Nat → Bool) (s : State) : State :=
  let keep := s.cfg.effective.filter fun p => !f p.id
  { s with cfg := { s.cfg with effective := overlay keep (s.cfg.params.filter fun p => f p.id) } }

/-- The values in force with those of a list of IDs taken from the committed set. -/
def takeIds (ids : List Nat) (s : State) : State := takeWhere ids.contains s

/-- The auxiliary power settings take effect at once (R277). -/
def auxId (id : Nat) : Bool := decide (0x0800 ≤ id ∧ id ≤ 0x08FF)

/-- A new set value of channel 3 ramps over the soft-start time from the reference in use; the start under way takes it at once (R277). -/
def newOutput (s : State) : State :=
  let v := 10 * s.parN 0x0835
  let r := s.aux.rails.getD 3 Rail.reset
  if r.st == .checking then modRail 3 (fun r => { r with vset := v }) s
  else if (r.st == .regulating || r.st == .softStart) && r.vset != v then
    modRail 3 (fun r => { r with vset := v, vfrom := r.reference s.clk.now, rampFrom := s.clk.now, rampTo := s.clk.now + us (100 * s.parN 0x0831) }) s
  else s

/-- A new switching frequency lengthens periods at once; a frequency that rises, and a phase, move under the slew limit with SLEW set
(R260, R277). old: the set committed before. -/
def newSwitching (old : List ParamRec) (s : State) : State :=
  let one := fun (x : Nat) (r : Rail) =>
    let set := 100 * s.parN (0x0800 + 0x10 * x)
    let goal := if s.sup.band = 2 then min set 1000 else set
    let phase := paramIn old (0x0804 + 0x10 * x) != paramIn s.cfg.effective (0x0804 + 0x10 * x)
    let on := r.st == .softStart || r.st == .regulating
    let moves := on && (decide (r.fsw < goal) || phase)
    { r with fsw := if on then min r.fsw goal else r.fsw, sync := r.sync && !moves, slew := r.slew || moves,
             freqCap := s.sup.band == 2 && decide (1000 < set) }
  { s with aux := { s.aux with rails := mapLvl s.aux.rails one } }

/-- A cell without a learned capacity has the configured nominal capacity (R158). -/
def nominalCaps (s : State) : State :=
  let nom : Rat := (s.parN 0x050B : Rat)
  { s with chg := { s.chg with cells := s.chg.cells.map fun a => if a.capLearned then a else { a with cap := nom } } }

/-- Every committed value but those with a point of their own takes effect (R321). -/
def applyParams (s : State) : State :=
  let late := s.cfg.effective.filter fun p => deferredIds.contains p.id
  let xtal := fun (st : State) => { st with clk := { st.clk with shoreXtal := st.clk.shoreXtal && st.par 0x0112 == 1 } }
  nominalCaps <| xtal <| noteReady (hostReady s)
    { s with cfg := { s.cfg with effective := overlay (s.cfg.params.filter fun p => !deferredIds.contains p.id) late } }

/-- The guard's copy of its limits (R95, Table 4-8). -/
def guardFrom (set : List ParamRec) : GuardLimits :=
  let g := fun i => ((paramIn set i).getD 0 0).toNat
  ⟨g 0x0303 * 5, g 0x0304 * 5, g 0x0305, g 0x0306 * 125, g 0x0307⟩

/-- The limits are copied into the guard at each configuration commit (R95). -/
def copyGuard (s : State) : State := { s with lad := { s.lad with guard := guardFrom s.cfg.params } }

/-- A change of an anchor voltage, a window or the rate limit ends any open span without disqualifying it (R170). old: the set committed
before. -/
def endSpans (old : List ParamRec) (s : State) : State :=
  if [0x0500, 0x0501, 0x0503, 0x0504, 0x0507, 0x0508].any (fun i => paramIn old i != paramIn s.cfg.params i) then
    { s with chg := { s.chg with cells := s.chg.cells.map fun c => { c with spanOpen := false, spanStarted := false } } }
  else s

/-- The settings that commit only while the shelf is not admitted (R321). -/
def notAdmittedId (id : Nat) : Bool := id == 0x0300 || id == 0x0301 || id == 0x0302 || decide (0x0411 ≤ id ∧ id ≤ 0x0428)

/-- Where control periods do not run, outside Run, a committed value takes effect at once (R321, log entry 13). -/
def applyOutsideRun (s : State) : State := if s.clk.pstate = .run then s else takeIds deferredIds (applyParams s)

/-- Writes a set and its generation in one journal commit, with what takes effect with it. -/
def commitSet (set : List ParamRec) (gen : BitVec 32) (changed : List ParamRec) (s : State) : State :=
  let old := s.cfg.params
  let s := { s with cfg := { s.cfg with params := set, gen := gen } }
  let s := journalCommit 0x1 { JItems.reset with params := some set } s
  applyOutsideRun (newOutput (newSwitching old (takeWhere auxId (activateModel changed (endSpans old (copyGuard s))))))

/-- GEN and DIGEST. -/
def genDigest (s : State) : List Byte := bvBytes 4 s.cfg.gen ++ digestOf s.cfg.params

/-- CFG_COMMIT as a state change (R321): nothing is committed where a check fails. -/
def cfgCommitOp (req : Req) (expect : BitVec 32) (s : State) : State :=
  runCommand req 0x0202 ⟨.service, false, false, true⟩ (fun s =>
    let st := (mail s req.mb).staged
    let set := overlay s.cfg.params st
    if s.cfg.commitBusy then answer req 0x0202 0x02 [] s
    else if hasRoom s (itemBytes s { JItems.reset with params := some set }) = false then answer req 0x0202 0x02 [] (journalRefused s)
    else if st = [] ∨ (expect ≠ 0 ∧ expect ≠ s.cfg.gen) then answer req 0x0202 0x12 [] s
    else
      match firstBad s.cfg.params st (fittedNow s) (filesNow s), modelRefusal s st with
      | some id, _ => answer req 0x0202 0x11 (leBytes 2 id ++ digestOf s.cfg.params) s
      | none, some code => answer req 0x0202 code (if code = 0x11 then leBytes 2 0x060E ++ digestOf s.cfg.params else []) s
      | none, none =>
        if isAdmitted s && st.any (fun p => notAdmittedId p.id) then answer req 0x0202 0x12 [] s
        else
          let s := commitSet set (s.cfg.gen + 1) st s
          let s := { modMail req.mb (fun m => { m with staged := [] }) s with cfg := { s.cfg with commitBusy := true } }
          reply req 0x0202 genDigest s) s

/-- CFG_COMMIT, served in a turn of its own (R318, R321). -/
def execCfgCommit (req : Req) (expect : BitVec 32) (s : State) : Out :=
  .next (cfgCommitOp req expect { s with cfg := { s.cfg with commitBusy := false } })

/-- CFG_DISCARD as a state change: the staged set of the mailbox is discarded (R320). -/
def cfgDiscardOp (req : Req) (s : State) : State :=
  runCommand req 0x0203 (.atLevel .service) (fun s =>
    answer req 0x0203 0x00 (leBytes 1 (mail s req.mb).staged.length) (modMail req.mb (fun m => { m with staged := [] }) s)) s

/-- CFG_DISCARD (R318). -/
def execCfgDiscard (req : Req) (s : State) : Out := .next (cfgDiscardOp req s)

/-- The records of requested IDs in request order, up to the first that does not fit: the number dealt with, and the bytes
(R405). -/
def readRecords (get : Nat → Option (List Int)) : List Nat → Nat → Nat × List Byte
  | [], _ => (0, [])
  | id :: ids, room =>
    let b := match get id with
      | some vs => recordBytes id vs
      | none => []
    if room < b.length then (0, [])
    else
      let r := readRecords get ids (room - b.length)
      (r.1 + 1, b ++ r.2)

/-- CFG_READ as a state change: committed values, or those staged on this mailbox (R405). -/
def cfgReadOp (req : Req) (source : Byte) (ids : List (BitVec 16)) (s : State) : State :=
  runChecked req 0x0204 (.atLevel .monitor) (decide (1 ≤ ids.length ∧ ids.length ≤ 120)) true (fun s =>
    let l := ids.map (·.toNat)
    if l.any (fun i => (paramSpec i).isNone) ∨ 1 < source.toNat then answer req 0x0204 0x11 [] s
    else
      let get := fun (i : Nat) =>
        if source = 0 then some (paramIn s.cfg.params i) else ((mail s req.mb).staged.find? (·.id == i)).map (·.vals)
      let r := readRecords get l 241
      answer req 0x0204 0x00 (leBytes 1 r.1 ++ r.2) s) s

/-- CFG_READ (R405). -/
def execCfgRead (req : Req) (source : Byte) (ids : List (BitVec 16)) (s : State) : Out := .next (cfgReadOp req source ids s)

/-- CFG_STATE as a state change. -/
def cfgStateOp (req : Req) (s : State) : State :=
  runCommand req 0x0205 (.atLevel .monitor) (reply req 0x0205 fun s =>
    genDigest s ++ leBytes 1 (mail s req.mb).staged.length ++ leBytes 1 (bit s.cfg.hasPending 0)
    ++ leBytes 8 ((s.cfg.order.map (·.2)).getD 0)) s

/-- CFG_STATE (R318). -/
def execCfgState (req : Req) (s : State) : Out := .next (cfgStateOp req s)

end Sys2Proof.Machine
end

