-- ==== Sys2Proof/Machine/EngineCmd.lean ====
section
/-! DEFINITION. The model engine commands, group 0x06 (R193, R194, R325), and the balancing offset h(k) (R189). -/

namespace Sys2Proof.Machine

/-- The engine record of cell k + 1's tile holds rho(k) once the cell has engine outputs and its 1 kHz point is stored (R189). -/
def rhoOf (s : State) (k : Nat) : Option Rat := if (tileRec s k).front.ready then (tileRec s k).front.rratio else none

/-- The mean of rho(k) over the available cells whose rho(k) is formed; none when no cell has one (R189). -/
def rhoMean (s : State) : Option Rat :=
  let l := (availableLevels s).filterMap (rhoOf s)
  if l.isEmpty then none else some (sumRat l / (l.length : Rat))

/-- The chip of level k + 1 as +1 or -1: the sequence is shifted by 16 chips from one level to the next (R192). -/
def chipOf (s : State) (k : Nat) : Rat := if Config.ditherChip ((s.eng.chip + 16 * k) % 255) then 1 else -1

/-- The dither of cell k + 1, zero-sum over the available cells; it runs while the impedance function is on and the current is at least
5 A (R192). -/
def dither (s : State) (k : Nat) : Rat :=
  let l := availableLevels s
  if !ditherOn s k then 0
  else (s.parN 0x060A : Rat) / 1000 * (chipOf s k - sumRat (l.map (chipOf s)) / (l.length : Rat))

/-- h(k) as the engine supplies it (R189); 0 while the cell is on fallback limits (R182, R198). -/
def hOff (s : State) (k : Nat) : Rat :=
  if onFallback s k then 0
  else
    let m := (rhoMean s).getD 0
    let d := match rhoMean s, rhoOf s k with
      | some _, some r => r - m
      | _, _ => 0
    clampRat (dither s k - (s.parN 0x0608 : Rat) / 100 * d) (-1 / 10) (1 / 10)

/-- The mean square of the ensemble's voltage residual over the steps of the last 1 s, in mV squared (R182, Table 8-7). -/
def rmsSq (s : State) (t : Tile) : Rat :=
  let l := (t.resid.filter fun p => decide (s.clk.now ≤ p.1 + sec 1)).map (·.2)
  if l.isEmpty then 0 else sumRat l / (l.length : Rat)

/-- The engine's outputs as a frame boundary takes them: a boundary at the ring time of a swap takes the buffer of before (R186). -/
def beforeSwap (s : State) : State :=
  { s with eng := { s.eng with tiles := s.eng.tiles.map fun t => if t.swapAt = some s.clk.ring then { t with front := t.back } else t } }

/-- The engine output record of cell k + 1 (Table 8-7, R199). -/
def outputRecord (s : State) (k : Nat) : List Byte :=
  let t := tileRec s k
  let o := t.front
  let off := engineOff s
  leBytes 1 (k + 1) ++ leBytes 1 (if engineOn s k then t.members.length else 0) ++ leBytes 2 (engineWord s k)
  ++ (match (if off then none else o.plating) with
      | some p => leInt 2 (roundRat (clampRat (p * 10) (-32767) 32767))
      | none => [0x00, 0x80])
  ++ leInt 2 (roundRat (o.coreT * 100)) ++ leBytes 4 (reportNat 32 (limitInUse s k true * 1000))
  ++ leBytes 4 (reportNat 32 (limitInUse s k false * 1000))
  ++ leBytes 2 (((rhoOf s k).map fun r => reportNat 16 (r * 1000)).getD 0) ++ leBytes 2 (reportNat 16 (o.lli * 100)) ++ leBytes 4 (reportNat 32 (s.eng.plated.getD k 0))
  ++ leBytes 2 (reportNat 16 (sqrtMilli (rmsSq s t) * 1000)) ++ leInt 1 (roundRat (hOff s k * 1000)) ++ leBytes 1 s.eng.throttle.val
  ++ leBytes 4 (o.stepTime % 2 ^ 32)

/-- ENGINE_OUTPUT as a state change, BAD_STATE in Watch (R315): up to COUNT records of present cells from FIRST on (Table 14-7). -/
def engineOutputOp (req : Req) (first num : Byte) (s : State) : State :=
  runCommand req 0x0601 ⟨.monitor, true, false, false⟩ (fun s =>
    let k := first.toNat - 1
    if first = 0 ∨ 16 < first.toNat ∨ present s k = false ∨ num = 0 ∨ 7 < num.toNat then answer req 0x0601 0x11 [] s
    else reply req 0x0601 (fun s => (((presentLevels s).filter (k ≤ ·)).take num.toNat).flatMap (outputRecord s)) s) s

/-- ENGINE_OUTPUT (R194, R325). -/
def execEngineOutput (req : Req) (first num : Byte) (s : State) : Out := .next (engineOutputOp req first num s)

/-- One point of a spectrum part (Table 8-6b). -/
def pointBytes (s : State) (p : Imp) : List Byte :=
  leBytes 4 (f32Bits p.re) ++ leBytes 4 (f32Bits p.im) ++ leBytes 2 p.coh
  ++ leBytes 2 (match p.stamp with | some t => min 65535 ((s.clk.now - t) / sec 1) | none => 0xFFFF)

/-- s(k) as Table 7-5c codes it. -/
def socCode (v : Option Rat) : List Byte :=
  match v with
  | some x => leInt 4 (roundRat (x * 1000))
  | none => [0x00, 0x00, 0x00, 0x80]

/-- One part of the spectrum of cell k + 1 (Table 8-6b). -/
def spectrumPart (s : State) (k part : Nat) : List Byte :=
  let t := tileRec s k
  leBytes 1 (k + 1) ++ leBytes 1 part ++ leBytes 2 (engineWord s k) ++ leBytes 4 (f32Bits t.impI) ++ leInt 2 (roundRat (t.impT * 10))
  ++ leBytes 2 0 ++ leBytes 8 t.impTime ++ socCode t.impSoc ++ (((t.points.drop (16 * part)).take 16).flatMap (pointBytes s))

/-- SPECTRUM as a state change, BAD_STATE in Watch (R315). -/
def spectrumOp (req : Req) (level part : Byte) (s : State) : State :=
  runCommand req 0x0602 ⟨.monitor, true, false, false⟩ (fun s =>
    let k := level.toNat - 1
    if level = 0 ∨ 16 < level.toNat ∨ present s k = false ∨ 1 < part.toNat then answer req 0x0602 0x11 [] s
    else reply req 0x0602 (fun s => spectrumPart s k part.toNat) s) s

/-- SPECTRUM (R193, R325). -/
def execSpectrum (req : Req) (level part : Byte) (s : State) : Out := .next (spectrumOp req level part s)

/-- MODEL_WRITE as a state change: bytes of the staged file slot (Table 14-7, R176). -/
def modelWriteOp (req : Req) (offset : BitVec 32) (data : List Byte) (s : State) : State :=
  runChecked req 0x0603 ⟨.service, false, false, true⟩ (decide (8 ≤ data.length ∧ data.length ≤ 232) && data.length % 8 == 0) true (fun s =>
    if offset.toNat % 8 ≠ 0 ∨ 262144 < offset.toNat + data.length then answer req 0x0603 0x11 [] s
    else answer req 0x0603 0x00 [] { s with nv := { s.nv with
      fileStaged := writeBytes offset.toNat data s.nv.fileStaged,
      badPages := s.nv.badPages.filter fun p => decide (p < 0x1400 + offset.toNat / 256 ∨ 0x1400 + (offset.toNat + data.length - 1) / 256 < p) } }) s

/-- MODEL_WRITE (R176, R325). -/
def execModelWrite (req : Req) (offset : BitVec 32) (data : List Byte) (s : State) : Out := .next (modelWriteOp req offset data s)

/-- VALID of MODEL_INFO (Table 14-7, R175). -/
def fileValid (s : State) (staged : Bool) : Nat :=
  let m := if staged then s.nv.fileStaged else s.nv.fileActive
  if m = [] then 0 else if !fileGood s staged then 2 else if !fileFieldsOk (s.par 0x0600) m then 3 else 1

/-- MODEL_INFO as a state change: the file is checked, and the final response carries its header (Table 14-7). -/
def modelInfoOp (req : Req) (slot : Byte) (s : State) : State :=
  runCommand req 0x0604 (.atLevel .monitor) (fun s =>
    if 1 < slot.toNat then answer req 0x0604 0x11 [] s
    else
      let m := if slot = 0 then s.nv.fileActive else s.nv.fileStaged
      finish req 0x00 (readBytes 0 64 m ++ leBytes 1 (fileValid s (slot == 1))) (accept req 0x0604 0x01 [] s)) s

/-- MODEL_INFO (R175, R325). -/
def execModelInfo (req : Req) (slot : Byte) (s : State) : Out := .next (modelInfoOp req slot s)

end Sys2Proof.Machine
end

