-- ==== Sys2Proof/Machine/Fuses.lean ====
section
/-! DEFINITION. The channels of the shore sequencer as other blocks see them: their records, the sequencing records, and switching an
electronic fuse off (11_aux_power.md). -/

namespace Sys2Proof.Machine

/-- The record of regulator channel x. -/
def railOf (s : State) (x : Nat) : Rail := s.aux.rails.getD x Rail.reset

/-- The record of eFuse channel x + 1. -/
def fuseOf (s : State) (x : Nat) : Efuse := s.aux.fuses.getD x Efuse.reset

/-- A setting of regulator channel x (Table 11-11). -/
def railPar (s : State) (x o : Nat) : Nat := s.parN (0x0800 + o + 0x10 * x)

/-- A setting of eFuse channel x + 1 (Table 11-11). -/
def fusePar (s : State) (x o : Nat) : Nat := s.parN (0x0840 + o + 0x10 * x)

/-! Sequencing records (R267) -/

/-- The power-die temperature in whole degC. -/
def powerTemp (s : State) : Int := (highest (powerValid s)).getD 0 / 100

/-- The payload of a sequencing record (Table 11-6). -/
def seqPayload (s : State) (event code : Nat) : List Byte :=
  leBytes 1 event ++ leBytes 1 code ++ leBytes 2 (s.sup.vor / 10) ++ leBytes 2 (s.sup.vmain / 10) ++ leBytes 2 (s.sup.vaux / 10)
  ++ leBytes 2 (s.sup.vhold / 10) ++ (s.aux.rails.flatMap fun r => leBytes 2 r.vout) ++ (s.aux.rails.flatMap fun r => leInt 2 r.iout)
  ++ (s.aux.fuses.flatMap fun f => leInt 2 f.current) ++ leInt 1 (powerTemp s) ++ leBytes 1 (maskOf (s.aux.rails.map (·.pg)))

/-- A sequencing record; one lost from the shore buffer is also counted as abandoned (R267). -/
def seqRecord (event code : Nat) (s : State) : State :=
  let lost := !(canWrite s && s.nv.buffer.isEmpty) && bufferFull s
  putRecord 0x02 0xFF false (seqPayload s event code) (if lost then count 76 s else s)

/-! Last-fault records (R274) -/

/-- Writes a last-fault record of channel position i: the two copies are written alternately, the older one each time, so that a torn write leaves
the other standing (R274; DEDUCED, log entry 195). -/
def storeFault (i : Nat) (r : LastFault) (l : List LastFault) : List LastFault := l.set (2 * i + r.seq.toNat % 2) r

/-- The last-fault record of channel position i that stands: of two valid copies the one with the newer SEQ (R274). -/
def standingFault (s : State) (i : Nat) : LastFault :=
  let a := s.aux.faults.getD (2 * i) LastFault.reset
  let b := s.aux.faults.getD (2 * i + 1) LastFault.reset
  if a.valid && b.valid then (if newer b.seq a.seq then b else a) else if b.valid then b else a

/-! Steps (R262, R263) -/

/-- Ends the requests that wait for eFuse channel x + 1. -/
def answerFuse (x : Nat) (s : State) : State :=
  let l := (fuseOf s x).req
  let s := modFuse x (fun f => { f with req := [] }) s
  l.foldl (fun st r => finish r 0x00 (leBytes 2 (fuseWord s x)) st) s

/-- A start step of the sequence has completed, by PG or by failure: the inter-step delay runs (R262). -/
def stepDone (s : State) : State :=
  if s.aux.seqRun == .starting then { s with aux := { s.aux with seqDue := s.clk.now + us (100 * s.parN 0x08C1) } } else s

/-- A regulator channel is still on its way to PG. -/
def railStarting (s : State) (x : Nat) : Bool :=
  (railOf s x).st == .checking || (((railOf s x).st == .softStart || (railOf s x).st == .regulating) && !(railOf s x).pg)

/-- The channel of a step is still on its way to PG (R262). Codes 0x10 to 0x12 are the model's own for channels 0 to 2 in an ordered shutdown, which
have no step code. -/
def stepStarting (s : State) (code : Nat) : Bool :=
  if code = 0x03 then railStarting s 3
  else if 0x10 ≤ code ∧ code ≤ 0x12 then railStarting s (code - 0x10)
  else if 0x21 ≤ code ∧ code ≤ 0x26 then
    (fuseOf s (code - 0x21)).st == .preCheck || ((fuseOf s (code - 0x21)).isOn && !(fuseOf s (code - 0x21)).pg)
  else false

/-- The step code of eFuse channel x + 1 (Table 11-5). -/
def fuseCode (x : Nat) : Nat := 0x21 + x

/-- Turns eFuse channel x + 1 off with a cause, with its sequencing record; one that is off keeps its state. -/
def dropFuse (cause : BitVec 4) (x : Nat) (s : State) : State :=
  let f := fuseOf s x
  if f.isOn || f.st == .preCheck then
    let t := answerFuse x (seqRecord 0x3 (fuseCode x) (modFuse x (Efuse.off cause) s))
    if stepStarting s (fuseCode x) then stepDone t else t
  else s

end Sys2Proof.Machine
end

