-- ==== Sys2Proof/Machine/LadderCmd.lean ====
section
/-! DEFINITION. The ladder commands, group 0x03 (R322, R90). -/

namespace Sys2Proof.Machine

/-- The response of LADDER_STATUS (Table 14-4). -/
def ladderFields (s : State) : List Byte :=
  (List.range 16).flatMap (fun k => leBytes 2 (levelWord s k)) ++ leBytes 2 (modWord s) ++ leBytes 2 (reportNat 16 (vLow s * 100))
  ++ leBytes 2 (reportNat 16 (vHigh s * 100)) ++ leBytes 2 (reportNat 16 (s.mod.vcmd * 100)) ++ leBytes 1 (retiredCount s)

/-- LADDER_STATUS as a state change. -/
def ladderStatusOp (req : Req) (s : State) : State := runCommand req 0x0301 (.atLevel .monitor) (reply req 0x0301 ladderFields) s

/-- LADDER_STATUS (R322). -/
def execLadderStatus (req : Req) (s : State) : Out := .next (ladderStatusOp req s)

/-- A mask takes in every present level that is not retired (R322). -/
def masksAll (mask : BitVec 16) (s : State) : Bool :=
  (presentLevels s).all fun k => (lvl s k).st == .retired || mask.getLsbD k

/-- Parks the levels of a mask with cause 0x1; a park of every level that is not retired ends admission (R322, R98). -/
def parkMasked (mask : BitVec 16) (s : State) : State :=
  let all := masksAll mask s
  let s := dropTrim (mapLevels (fun k l => if mask.getLsbD k && present s k then l.park 0x1 else l) s)
  if all || s.lad.adm == .ramp then endAdmission s else s

/-- The levels of a mask that are parked. -/
def parkedMask (mask : BitVec 16) (s : State) : Nat :=
  maskOf ((List.range 16).map fun k => mask.getLsbD k && present s k && (lvl s k).st == .parked)

/-- Answers one LADDER_PARK request; one whose session has ended is discarded (R300, R309). -/
def answerPark (r : Req) (s : State) : State :=
  if (mail s r.mb).dropRun.contains r.tag then modMail r.mb (fun m => { m with dropRun := m.dropRun.filter (· != r.tag) }) s
  else answer r 0x0302 0x00 (leBytes 2 (parkedMask 0xFFFF s)) s

/-- Answers the LADDER_PARK requests that wait for the boundary (R322). -/
def answerParks (s : State) : State :=
  let l := s.lad.parkTag
  l.foldl (fun st r => answerPark r st) { s with lad := { s.lad with parkTag := [] } }

/-- The park command at a period boundary. -/
def parkAtBoundary (s : State) : State :=
  if s.lad.parkTag.isEmpty && s.lad.parkMask = 0 then s
  else
    let m := s.lad.parkMask
    answerParks { parkMasked m s with lad := { (parkMasked m s).lad with parkMask := 0 } }

/-- LADDER_PARK as a state change: in Run the levels are parked, and the command answered, at the next period boundary; outside Run
there is none to wait for (R322, log entry 13). -/
def ladderParkOp (req : Req) (mask : BitVec 16) (s : State) : State :=
  runCommand req 0x0302 (.atLevel .operator) (fun s =>
    let s := { s with lad := { s.lad with parkMask := s.lad.parkMask ||| mask, parkTag := s.lad.parkTag ++ [req] } }
    if s.clk.pstate = .run then s else parkAtBoundary s) s

/-- LADDER_PARK (R322). -/
def execLadderPark (req : Req) (mask : BitVec 16) (s : State) : Out := .next (ladderParkOp req mask s)

/-- Every present level is bypassed, parked or retired as sensed at its gates (R99); a level held with both gates off since power-up is a parked one
(R91). -/
def outOrRetired (s : State) : Bool :=
  (presentLevels s).all fun k => (lvl s k).sensedOut || (lvl s k).st == .retired || ((lvl s k).st == .parked && (lvl s k).powerShort)

/-- SHELF_BYPASS as a state change: a close parks every level first and ends admission, and a Wellhead hands over before it (Table
9-10); an open is barred by R99 and while the current is 2 A or more. -/
def shelfBypassOp (req : Req) (action : Byte) (s : State) : State :=
  runCommand req 0x0303 (.atLevel .operator) (fun s =>
    if 1 < action.toNat then answer req 0x0303 0x11 [] s
    else if checkRuns s then answer req 0x0303 0x02 [] s
    else if action = 1 then
      if !(stuckLevels s).isEmpty && !packOpen s then answer req 0x0303 0x12 [] s
      else
        let s := parkAndClose 0x1 (handOverFirst s)
        answer req 0x0303 0x00 (leBytes 1 (bit s.lad.sby 0)) s
    else if outOrRetired s = false ∨ 2 ≤ absRat (reportedA s) then answer req 0x0303 0x12 [] s
    else
      let s := openBypass s
      answer req 0x0303 0x00 (leBytes 1 (bit s.lad.sby 0)) s) s

/-- SHELF_BYPASS (R322, R99). -/
def execShelfBypass (req : Req) (action : Byte) (s : State) : Out := .next (shelfBypassOp req action s)

/-- LEVEL_CLEAR as a state change: marks retired levels for re-check and changes nothing else of them (R90). -/
def levelClearOp (req : Req) (mask : BitVec 16) (s : State) : State :=
  runCommand req 0x0304 ⟨.service, false, false, true⟩ (fun s =>
    if isAdmitted s then answer req 0x0304 0x12 [] s
    else if checkRuns s then answer req 0x0304 0x02 [] s
    else
      let hit := fun (k : Nat) (l : Level) => mask.getLsbD k && present s k && l.st == .retired
      let cleared := maskOf (mapLvl s.lad.levels hit)
      let s := holdMram (mapLevels (fun k l => if hit k l then { l with recheck := true } else l) s)
      answer req 0x0304 0x00 (leBytes 2 cleared) s) s

/-- LEVEL_CLEAR (R90, R322). -/
def execLevelClear (req : Req) (mask : BitVec 16) (s : State) : Out := .next (levelClearOp req mask s)

/-- The levels a check covers: present levels not retired, and retired levels marked for re-check (R86). -/
def toCheck (s : State) : List (Fin 16) :=
  (List.finRange 16).filter fun k => present s k.val && ((lvl s k.val).st != .retired || (lvl s k.val).recheck)

/-- The response of LADDER_CHECK: the check codes of levels 1 to 16 (Table 14-4). -/
def checkCodes (s : State) : List Byte := (List.range 16).map fun k => if present s k then BitVec.setWidth 8 (lvl s k).check else 0

/-- LADDER_CHECK as a state change: it starts the pre-start check of R86. -/
def ladderCheckOp (req : Req) (s : State) : State :=
  runCommand req 0x0305 (.atLevel .operator) (fun s =>
    if checkRuns s then answer req 0x0305 0x02 [] s
    else if s.lad.sby = false ∨ isAdmitted s then answer req 0x0305 0x12 [] s
    else
      let s := accept req 0x0305 0x01 [] s
      if (toCheck s).isEmpty then finish req 0x00 (checkCodes s) s
      else { s with lad := { s.lad with checkReq := some req, checkLeft := toCheck s } }) s

/-- LADDER_CHECK (R322). -/
def execLadderCheck (req : Req) (s : State) : Out := .next (ladderCheckOp req s)

end Sys2Proof.Machine
end

