-- ==== Sys2Proof/Machine/Modulation.lean ====
section
/-! DEFINITION. The scheduler, the trim carrier and the voltage loop (05_ladder_modulation.md): control periods, frames, carrier peaks
and the hold. -/

namespace Sys2Proof.Machine

/-- The shelf is in the string under the scheduler: the start ramp or after it, and the ladder is not frozen (R93, R100). -/
def scheduling (s : State) : Bool :=
  s.clk.pstate == .run && isAdmitted s && s.lad.freezeAt.isNone && s.lad.parkRun == .none && s.clk.inReset.isNone && !s.dbg.haltedLp

/-! The end of a period (R115, R120, R402) -/

/-- v(k,p): the mean of the usable INS samples of the period, or the allocation voltage (R120). -/
def periodV (s : State) (k : Nat) : Rat :=
  let n := s.mod.vCount.getD k 0
  if n = 0 then cellV s k else s.mod.vSum.getD k 0 / (n : Rat)

/-- V(real): the realised average of the period (R120). -/
def realised (s : State) : Rat := sumRat ((presentLevels s).map fun k => s.mod.tauNow.getD k 0 * periodV s k)

/-- x(max) in V (R120). -/
def xMax (s : State) : Rat := (s.parN 0x0326 : Rat) / 1000 * vHigh s

/-- With x(max) = 0 in force the integrator is disabled: x and INT_LIM are 0 (R120). -/
def loopOff (s : State) : State :=
  if s.parN 0x0326 = 0 then { s with mod := { s.mod with integ := 0, intLim := false } } else s

/-- The voltage loop after a period (R120): held while the command lies outside the range (Table 5-2a), in a period in which the ladder was
frozen (R126), off with x(max) = 0, and out of the string at no limit (R128). -/
def loopUpdate (s : State) : State :=
  let lim := xMax s
  if s.mod.frozenIn then s
  else if !scheduling s then { s with mod := { s.mod with intLim := s.mod.intLim && isAdmitted s } }
  else if s.parN 0x0326 = 0 then loopOff s
  else if s.mod.voltSat then s
  else
    let x := clampRat (s.mod.integ + 1 / (10 * (s.parN 0x0325 : Rat)) * (commandV s - realised s)) (-lim) lim
    { s with mod := { s.mod with integ := toF32 x, intLim := decide (lim ≤ absRat x) } }

/-- Accounts for the period that has ended, once: the mean current and direction, the voltage loop and the deficits (R115, R117, R120,
R402). D(k) takes no duty of a period in which the ladder was frozen, and in the insertion-difference test, where no duties are chosen, that of the last
allocation (DESIGN CHOICE, log entries 193 and 194). -/
def closePeriod (s : State) : State :=
  if s.mod.closed then s
  else
    let s := loopUpdate s
    let m := s.mod
    let mean := if m.iCount = 0 then m.iMean else m.iSum / (m.iCount : Rat)
    let run := scheduling s && !m.frozenIn
    { s with mod := { m with
      closed := true, frozenIn := s.lad.freezeAt.isSome, iMean := mean, iSum := 0, iCount := 0, charge := if mean = 0 then m.charge else decide (mean < 0),
      sumDuty := if run then List.zipWith (· + ·) m.sumDuty m.duties else m.sumDuty,
      sumTau := List.zipWith (· + ·) m.sumTau m.tauNow, tauNow := List.replicate 16 0, vSum := List.replicate 16 0, vCount := List.replicate 16 0 } }

/-! Water-filling (R114 to R116, Table 5-1) -/

/-- One available level's part in the allocation. -/
structure Share where
  k : Nat
  v : Rat
  o : Rat
  u : Rat
  deriving DecidableEq, Repr

/-- s as the frame boundary latched it; an unanchored cell takes the mean over the anchored available cells, 50 % without one (R116,
R159). -/
def latchedMean (s : State) : Rat :=
  let l := (availableLevels s).filterMap fun k => s.mod.socLat.getD k none
  if l.isEmpty then 50 else sumRat l / (l.length : Rat)

/-- Bounds and offset of an available level (Table 5-1); a level without a usable sample takes 0 and 0 (R132). -/
def shareOf (s : State) (k : Nat) : Share :=
  let mean := latchedMean s
  let sg : Rat := if s.mod.charge then -1 else 1
  let o := sg * ((s.parN 0x0322 : Rat) / 10000) * ((s.mod.socLat.getD k none).getD mean - mean) + s.mod.hoffLat.getD k 0
  match allocV s k with
  | none => ⟨k, 0, o, 0⟩
  | some v => ⟨k, v, o, minRat 1 (latchedLimit s k / maxRat (absRat s.mod.iMean) 1)⟩

/-- The duty of a level at water level lam (R114). -/
def Share.at (lam : Rat) (x : Share) : Rat := clampRat (x.o + lam) 0 x.u

/-- The weighted sum of the duties over a base of stuck-in cells (R114). -/
def fillSum (base : Rat) (xs : List Share) (lam : Rat) : Rat := base + sumRat (xs.map fun x => x.at lam * x.v)

/-- The segment of the breakpoints that contains V(alloc), and its linear interpolation (R114). -/
def scanPoints (base : Rat) (xs : List Share) (v : Rat) : List Rat → Option Rat
  | a :: b :: pts =>
    let sa := fillSum base xs a
    let sb := fillSum base xs b
    if sa ≤ v ∧ v ≤ sb then some (if sa = sb then a else a + (v - sa) * (b - a) / (sb - sa)) else scanPoints base xs v (b :: pts)
  | _ => none

/-- The water level, in binary32; none when no level meets R114 within the bounds (R114, R116). -/
def solveLambda (base : Rat) (xs : List Share) (v : Rat) : Option Rat :=
  (scanPoints base xs v ((xs.flatMap fun x => [-x.o, x.u - x.o]).foldr insertRat [])).map toF32

/-! The set (R117 to R119) -/

/-- The inserted levels, the trim level and its duty. -/
structure Plan where
  full : List Nat
  trim : Option Nat
  duty : Rat
  deriving DecidableEq, Repr

/-- Inserts levels in order while they fit below V(alloc), and places the first that does not in trim (R117). -/
def fillSet (v : Rat) : List Share → Rat → List Nat → Plan
  | [], _, acc => ⟨acc, none, 0⟩
  | x :: xs, sum, acc =>
    if sum + x.v ≤ v then fillSet v xs (sum + x.v) (acc ++ [x.k])
    else if sum = v then ⟨acc, none, 0⟩
    else ⟨acc, some x.k, toF32 ((v - sum) / x.v)⟩

/-- The deficit e(k) (R117). -/
def deficit (s : State) (k : Nat) : Rat := s.mod.carry.getD k 0 + s.mod.sumDuty.getD k 0 - s.mod.sumTau.getD k 0

/-- Puts a level into a list of falling priority; equal priorities keep the order of the levels. -/
def insertPrio (p : Rat × Share) : List (Rat × Share) → List (Rat × Share)
  | [] => [p]
  | q :: qs => if q.1 < p.1 then p :: q :: qs else q :: insertPrio p qs

/-- The order of R117 with a swap bonus of a level in trim and of one inserted, 100,000 standing for the unbounded one: with it the inserted
levels come first and the level in trim after them, so that only what the voltage requires changes (R119). -/
def orderBy (s : State) (bonus : Rat × Rat) (duty : Nat → Rat) (xs : List Share) : List Share :=
  let worth := fun (k : Nat) => match (lvl s k).st with | .trim => bonus.1 | .inserted => bonus.2 | _ => 0
  let prio := fun (x : Share) => deficit s x.k + duty x.k + worth x.k
  ((xs.map fun x => (prio x, x)).foldl (fun l p => insertPrio p l) []).map (·.2)

/-- The state a plan gives a level. -/
def Plan.want (p : Plan) (k : Nat) : LevelSt := if p.full.contains k then .inserted else if p.trim = some k then .trim else .bypassed

/-- The level changes a plan makes (R118). -/
def changesOf (s : State) (p : Plan) : List Nat := (availableLevels s).filter fun k => (lvl s k).st != p.want k

/-- The transition budget of a frame (R118). -/
def budget (s : State) : Nat :=
  if s.parN 0x0323 != 0 then s.parN 0x0323
  else
    let q : Rat := (s.parN 0x0301 : Rat)
    let fc : Rat := 3200000000 / (s.parN 0x0321 : Rat)
    ((100000000 / q - 2 * fc) / 2 * (s.mod.frameLen : Rat) / 100000).floor.toNat

/-- The allowance of this period: ceil of the budget left over the periods left (R118). -/
def allowance (s : State) : Nat :=
  let rem := max 1 (s.mod.frameLen - s.mod.period % max 1 s.mod.frameLen)
  (budget s - s.mod.budgetUsed + rem - 1) / rem

/-- The set of the period (R117, R119); the swap bonus is unbounded during the start ramp (R126). -/
def chooseSet (s : State) (v : Rat) (duty : Nat → Rat) (xs : List Share) : Plan :=
  let ys := xs.filter fun x => decide (0 < x.u)
  let plan := fun (b : Rat × Rat) => fillSet v (orderBy s b duty ys) (vLow s) []
  let swap : Rat := (s.parN 0x0324 : Rat) / 100
  let first := plan (if s.lad.adm == .ramp then (100000, 200000) else (swap, swap))
  if allowance s < (changesOf s first).length then plan (100000, 200000) else first

/-- Puts a plan into the ladder: available levels take their states, stuck-in and out levels keep theirs (R117). -/
def applyPlan (p : Plan) (s : State) : State :=
  let turn := fun (k : Nat) (l : Level) =>
    if !available s k then l
    else match p.want k with
      | .inserted => l.insert
      | .trim => l.toTrim
      | _ => l.bypass
  mapLevels turn s

/-- The levels whose state differs between two states (R118). -/
def changedLevels (old new : State) : List Nat := (List.range 16).filter fun k => (lvl old k).st != (lvl new k).st

/-- The level changes of a boundary are counted by level (counters 0 to 15) and against the budget of the frame, which stops rotation once
it is spent before its end (R118, R119). -/
def spendChanges (l : List Nat) (s : State) : State :=
  let s := l.foldl (fun st k => count k st) s
  let used := s.mod.budgetUsed + l.length
  let spent := decide (budget s ≤ used) && decide ((s.mod.period + 1) % max 1 s.mod.frameLen ≠ 0)
  let newly := spent && !s.mod.budgetSat
  let s := { s with mod := { s.mod with budgetUsed := used, budgetSat := s.mod.budgetSat || spent } }
  if newly then count 18 s else s

/-- delta(min) of R111. -/
def dutyMin (s : State) : Rat := ((s.parN 0x0302 : Rat) + 640) / (s.parN 0x0321 : Rat)

/-- A duty lies in the pulse-skipping band (R111). -/
def inSkipBand (s : State) (d : Rat) : Bool :=
  (decide (0 < d) && decide (d < dutyMin s)) || (decide (1 - dutyMin s < d) && decide (d < 1))

/-- The edges of a pulse at the gates, from the valley: bypass off, insert on, insert off, bypass on. In discharge the bypass switch's body
diode carries the current through the dead time and in charge the insert switch's, so each edge is moved by the dead time to make the
interval in which the cell carries current as wide as the pulse (R110; which diode it is, DEDUCED, log entry 150). A gate whose edges would leave it no
time between the two dead times stays off: its two edges coincide (R84). -/
def edgesOf (s : State) (width : Nat) : List Int :=
  if width = 0 || decide (carrierCycles s ≤ width) then []
  else
    let a : Int := -((width / 2 : Nat) : Int)
    let b : Int := a + width
    let d : Nat := s.parN 0x0302
    let p := carrierCycles s
    if stringA s < 0 then
      (if width ≤ 2 * d then [a, a + (width / 2 : Nat), a + (width / 2 : Nat), b] else [a, a + d, b - d, b])
    else
      let g : Int := ((p - width) / 2 : Nat)
      if p - width ≤ 2 * d then [b + g - p, a, b, b + g] else [a - d, a, b, b + d]

/-- The pulse in cycles that a duty outside the pulse-skipping band gives: 2h (R110). -/
def plainPulse (s : State) (d : Rat) : Nat := 2 * (roundRat (d * (carrierCycles s : Rat) / 2)).toNat

/-- A pulse of the timing hardware, with the duty it comes from. -/
def setPulse (d : Rat) (width : Nat) (s : State) : State := { s with mod := { s.mod with latched := d, pulse := width, gateEdges := edgesOf s width } }

/-- The latch at a boundary at which the trim level changes: the duty holds for the rest of the carrier period and the accumulator does not
step, so in the pulse-skipping band the short pulse or gap is left out (R110, R111, log entry 149). -/
def latchDuty (d : Rat) (s : State) : State :=
  setPulse d (if !inSkipBand s d then plainPulse s d else if d < dutyMin s then 0 else carrierCycles s) s

/-- The pulse of a carrier period from the duty latched at its peak: its width, the accumulator after it, and whether a pulse or a
gap was left out (R110, R111). -/
def pulseOf (s : State) (d : Rat) : Nat × Rat × Bool :=
  let p := carrierCycles s
  let tm := s.parN 0x0302 + 640
  if !inSkipBand s d then (plainPulse s d, s.mod.accum, false)
  else if d < dutyMin s then
    let a := s.mod.accum + d / dutyMin s
    if 1 ≤ a then (tm, a - 1, false) else (0, a, true)
  else
    let a := s.mod.accum + (1 - d) / dutyMin s
    if 1 ≤ a then (p - tm, a - 1, false) else (p, a, true)

/-- One allocation: the voltage range, the water level, the set, and what the flags say (R114 to R119, R124, Table 5-2a). -/
def allocate (s : State) : State :=
  let want := commandV s + s.mod.integ
  let v := clampRat want (vLow s) (vHigh s)
  let xs := (availableLevels s).map (shareOf s)
  let opened := xs.map fun x => { x with u := if x.v = 0 then 0 else 1 }
  let first := solveLambda (vLow s) xs v
  let xs' := if first.isSome then xs else opened
  let lam := (first.orElse fun _ => solveLambda (vLow s) opened v).getD 2
  let stuck := stuckLevels s
  let duty := fun (k : Nat) => if stuck.contains k then 1 else ((xs'.find? (·.k == k)).map (Share.at lam)).getD 0
  let p := chooseSet s v duty xs'
  let ch := changesOf s p
  let was := s.mod.trim.map (·.val)
  let lsat := first.isNone && !xs.isEmpty
  let vsat := decide (want ≠ v)
  let s := spendChanges ch (applyPlan p s)
  let s := { s with mod := { s.mod with
    duties := (List.range 16).map duty, trim := (List.finRange 16).find? fun k => p.trim = some k.val, trimDuty := p.duty,
    limitSat := lsat, voltSat := vsat, pulseSkip := p.trim.isSome && inSkipBand s p.duty } }
  let s := if p.trim = was then s else latchDuty p.duty s
  let s := if lsat then count 20 s else s
  if vsat then count 21 s else s

/-! Tap tests in the scheduler (R151) -/

/-- The levels beside the first suspect tap that the insertion-difference test runs on: those that are available while the shelf is in
the string (R151). -/
def testLevels (s : State) : List Nat :=
  match s.meas.suspects with
  | [] => []
  | j :: _ => if isAdmitted s then (tapLevels s j).filter (available s) else []

/-- Without an allocation no flag of one stands (R128). -/
def noAllocation (s : State) : State := { s with mod := { s.mod with limitSat := false, voltSat := false, pulseSkip := false } }

/-- The allocation of a period in which no test holds the set. -/
def scheduleOrNot (s : State) : State := if scheduling s then allocate s else noAllocation s

/-- One period of the insertion-difference test of level k: the set without it and without a trim level from the first of 20 periods, the set
with it from the eleventh (R151). -/
def testSet (r k : Nat) (s : State) : State :=
  let old := s
  let s := setPulse 0 0 (noAllocation { s with mod := { s.mod with trim := none } })
  let s := if r % 20 = 0 then mapLevels (fun j x => if available s j && (x.st == .trim || j == k) then x.bypass else x) s
    else if r % 20 = 10 && available s k then modLevel k Level.insert s
    else s
  spendChanges (changedLevels old s) s

/-- One period of the tests of the first suspect tap: from a 50 us boundary, 20 periods for each level beside it, then the open-wire test of
the tap, during which the scheduler goes on (R151). -/
def testPeriod (s : State) : State :=
  let go := fun (r : Nat) (s : State) =>
    let s := { s with meas := { s.meas with tapRun := some (r + 1) } }
    match s.meas.tapPlan[r / 20]? with
    | none => scheduleOrNot { s with meas := { s.meas with owtTap := s.meas.suspects.head? } }
    | some k => testSet r k s
  match s.meas.tapRun with
  | some r => go r s
  | none =>
    if s.clk.ring % 50000 = 0 then go 0 { s with meas := { s.meas with tapPlan := testLevels s, tapOut := [] } } else scheduleOrNot s

/-! Control periods and frames (R105 to R107) -/

/-- The next control-period boundary whose period has not begun. -/
def nextPeriod (s : State) : Nat := instantFrom 10000 0 (max s.clk.ring (10000 * (s.mod.period + 1)))

/-- A period boundary: the period that ends is accounted for, committed values and park commands take effect, a command for the period
is taken, and the new set is issued (R105, R321, R322). -/
def beginPeriod (s : State) : State :=
  let s := closePeriod (advanceRing (nextPeriod s) s)
  let p := s.clk.ring / 10000
  let s := if s.clk.replayed then judgeService (loopOff (applyParams s)) else s
  let v := if s.mod.nextFor = p then s.mod.nextCmd.getD s.mod.vcmd else s.mod.vcmd
  let got := s.mod.nextFor = p ∧ s.mod.nextCmd.isSome
  let s := { s with
    mod := { s.mod with period := p, closed := false, vcmd := v, nextCmd := if got then none else s.mod.nextCmd,
                        hold := (s.mod.hold || s.mod.missNext) && !decide got, holdExp := s.mod.holdExp && !decide got, missNext := false
                        phaseSlew := phaseMoving s }
    clk := { s.clk with lpMissed := 0 } }
  let s := histFree 2 (parkAtBoundary s)
  if s.meas.tapTest && s.lad.freezeAt.isNone then testPeriod s
  else if scheduling s then allocate s
  else dropTrim (noAllocation s)

/-- CONTROL_PERIOD: control periods run in Run (R105). -/
def execControlPeriod (s : State) : Out := .next (if s.clk.pstate = .run then beginPeriod s else s)

/-- The frame length that is committed, once the journal has been replayed (R107). -/
def committedF (s : State) : Nat := if s.clk.replayed then ({ s with cfg := (takeIds [0x0320] s).cfg }).parN 0x0320 else s.mod.frameLen

/-- A frame boundary: the next one of the length in use, or the first of a new length that has been committed, which takes effect there; L(k), s(k) and h(k) are latched, deficits are carried over and the budget is renewed (R107,
R116, R117, R118); taper limits move on (R160). -/
def beginFrame (s : State) : State :=
  let at0 := max s.clk.ring (10000 * (s.mod.period + 1))
  let tOld := instantFrom (10000 * s.mod.frameLen) 0 at0
  let tNew := instantFrom (10000 * committedF s) 0 at0
  let f := if tNew ≤ tOld then committedF s else s.mod.frameLen
  let s := if tNew ≤ tOld ∧ s.clk.replayed = true then { s with cfg := (takeIds [0x0320] s).cfg } else s
  let s := closePeriod (advanceRing (min tOld tNew) s)
  let s := { s with chg := { s.chg with cells := mapLvl s.chg.cells (taperStep s) } }
  let lv := List.range 16
  let b := beforeSwap s
  { s with mod := { s.mod with
    frameLen := f, limDis := lv.map fun k => cellLimit b k false, limCh := lv.map fun k => cellLimit b k true
    socLat := lv.map fun k => (acc s k).soc, hoffLat := lv.map (hOff b), carry := lv.map fun k => clampRat (deficit s k) (-1) 1
    sumDuty := List.replicate 16 0, sumTau := List.replicate 16 0, budgetUsed := 0, budgetSat := false } }

/-- FRAME_BOUNDARY: in Run (R107, R116). -/
def execFrameBoundary (s : State) : Out := .next (if s.clk.pstate = .run then beginFrame s else s)

/-! The trim carrier (R109 to R113) -/

/-- The phase after one carrier period of a move: by at most P(c) / 100 cycles towards its goal, the shorter way round (R113). -/
def phaseStep (s : State) : Option Nat :=
  let p := carrierCycles s
  s.mod.phase.map fun c =>
    let up := (s.mod.phaseGoal + p - c % p) % p
    if up = 0 then s.mod.phaseGoal
    else if up ≤ p / 2 then (c + min up (p / 100)) % p
    else (c + p - min (p - up) (p / 100)) % p

/-- Goes to the next carrier peak; with the shelf bypass switch closed, a new phase is taken at the valley that comes before it (R109,
R113). -/
def toPeak (s : State) : State :=
  let s := settlePhase s
  let c := s.clk.ring * 16 / 5 + 1
  let ph := s.mod.phase.getD 0
  let v := valleyFrom s ph (max c (cyclesAt s.mod.phaseSetAt + 1))
  if s.lad.sby && ph != s.mod.phaseGoal && decide (v < peakFrom s ph c) then
    let s := settlePhase (advanceRing (timeOfCycle v) s)
    advanceRing (timeOfCycle (peakFrom s (s.mod.phase.getD 0) (v + 1))) s
  else advanceRing (timeOfCycle (peakFrom s ph c)) s

/-- A carrier peak: delta is latched, the accumulator steps, and with the shelf bypass switch open the phase moves (R110, R111, R113). -/
def takePeak (s : State) : State :=
  let s := slewFlag (toPeak s)
  let d := if s.mod.trim.isSome then s.mod.trimDuty else 0
  let r := pulseOf s d
  let s := count 16 (setPulse d r.1 { s with mod := { s.mod with accum := r.2.1, phase := if s.lad.sby then s.mod.phase else phaseStep s } })
  if r.2.2 && s.mod.trim.isSome then count 17 s else s

/-- CARRIER_PEAK: the trim carrier runs in Run (R109 to R113). -/
def execCarrierPeak (s : State) : Out := .next (if s.clk.pstate = .run then takePeak s else s)

/-! Missing commands and the hold (R106, R122, R123) -/

/-- No valid COMMAND 1 us before the next period: the voltage is kept, the missed command counted, and HOLD is set from that
period on (R106, R122). -/
def missCommand (s : State) : State :=
  let s := advanceRing (10000 * (s.mod.period + 1) - 1000) s
  if s.mod.nextCmd.isSome ∧ s.mod.nextFor = s.mod.period + 1 then s
  else count 19 { s with mod := { s.mod with missNext := true, missedRun := s.mod.missedRun + 1 } }

/-- COMMAND_MISSING: in Run (R106, R122). -/
def execCommandMissing (s : State) : Out := .next (if s.clk.pstate = .run then missCommand s else s)

/-- The hold expires 20 ms after the last valid COMMAND: HOLD_EXP is set, and a gateway shelf switches its feeding channel 5 off (R123,
Table 5-2). -/
def expireHold (s : State) : State :=
  if !s.mod.hold || s.mod.holdExp then s
  else
    let s := advanceTo (s.mod.lastCmdAt + ms 20) s
    let s := { s with mod := { s.mod with holdExp := true } }
    if contactorFeed s && s.par 0x0327 == 1 then dropFuse 0xA 4 s
    else s

/-- HOLD_EXPIRY: in Run (R123). -/
def execHoldExpiry (s : State) : Out := .next (if s.clk.pstate = .run then expireHold s else s)

/-- After expiry, once the string current has stayed below 2 A for 10 ms, the shelf issues the park command to itself: at the next period
boundary its levels take cause 0x1, and it needs admission (R123, R322). The 10 ms count from the expiry at the earliest (DESIGN CHOICE, log
entry 151: R123 gives them no start). -/
def parkHeld (s : State) : State :=
  match s.lad.idleSince with
  | none => s
  | some t =>
    if s.mod.holdExp then
      let s := advanceTo (max t (s.mod.lastCmdAt + ms 20) + ms 10) s
      { s with lad := { s.lad with parkMask := 0xFFFF } }
    else s

/-- HOLD_PARK: in Run (R123). -/
def execHoldPark (s : State) : Out := .next (if s.clk.pstate = .run then parkHeld s else s)

end Sys2Proof.Machine
end

