-- ==== Sys2Proof/Machine/Guard.lean ====
section
/-! DEFINITION. The guard, the pre-start check, admission, the freeze and the pack disconnect (04_cell_ladder.md). -/

namespace Sys2Proof.Machine

/-! Guard actions (R95 to R98) -/

/-- A guard park of one level: an anchor in progress ends (R96, R97, Table 7-3). -/
def guardPark (k : Nat) (cause : BitVec 4) (s : State) : State :=
  raise 24 .contained cause.toNat (k + 1) (count 22 (parkLevel k cause (endAnchorOf k s)))

/-- The cause of a cell limit (Table 4-3). -/
def cellLimitCause : CellLimit → BitVec 4
  | .overVoltage => 0x2 | .underVoltage => 0x3 | .overTemperature => 0x5

/-- A cell limit has held past its filter: the guard parks the level; a retired or parked level keeps its state (R96). -/
def guardCell (k : Nat) (l : CellLimit) (s : State) : State :=
  if !present s k || (lvl s k).st == .retired || (lvl s k).st == .parked then s else guardPark k (cellLimitCause l) s

/-- What a guard comparator gives under an armed offset: an event that comes meanwhile carries its mark, and an offset that acts once is spent
(R291, R292, Table 18-6). -/
def guardCompares (k : Nat) (l : CellLimit) (s : State) : State :=
  let q := if l = .overTemperature then (0, s) else injected (0x0131 + k) s
  marked (q.1 != 0) (guardCell k l) q.2

/-- GUARD_CELL_LIMIT: the guard works in every state with the supply up (R95, R96). -/
def execGuardCellLimit (level : Lvl) (limit : CellLimit) (s : State) : Out :=
  .next (if s.clk.pstate = .off then s else guardCompares level.val limit s)

/-- The cause of a park-all (Table 4-3). -/
def parkAllCause : ParkAll → BitVec 4
  | .overCurrent => 0x4 | .bsUnderVoltage _ => 0x6 | .dieTemperature => 0x9

/-- A BSk under-voltage of a level that is absent, or that has neither gate commanded on, is none (R15, Table 4-8). -/
def noParkAll (s : State) : ParkAll → Bool
  | .bsUnderVoltage k => !present s k.val || !((lvl s k.val).insGate || (lvl s k.val).bypGate)
  | _ => false

/-- The guard parks every level and closes the shelf bypass switch, parking first (R96, R97); the string current must then stay quiet, and
the shelf goes through admission again (R98). -/
def guardAll (r : ParkAll) (s : State) : State :=
  let s := match r with
    | .bsUnderVoltage k => modLevel k.val (fun l => { l with bsOk := false, insGate := false, bypGate := false }) s
    | _ => s
  let s := count 22 (parkAndClose (parkAllCause r) (endAnchors (yieldRole s)))
  raise 24 .contained (16 + (parkAllCause r).toNat) 0 { s with lad := { s.lad with ocHold := true, quietSince := none } }

/-- GUARD_PARK_ALL (R96, R97). -/
def execGuardParkAll (reason : ParkAll) (s : State) : Out :=
  .next (if s.clk.pstate = .off ∨ noParkAll s reason = true then s else guardAll reason s)

/-- The NTC input of a cell stands faulted: no release, and a level that would be released is parked with cause 0x5 (R98, R141). -/
def ntcHolds (s : State) (k : Nat) : Bool := (cellNtc s k).any (·.faulted)

/-- A level parked by the guard returns to bypassed once its cause has been clear for 1 s; not while FSTAT GUARD holds it (R98). -/
def guardRelease (k : Nat) (s : State) : State :=
  let l := lvl s k
  match l.clearedAt with
  | none => s
  | some t =>
    if l.st != .parked || !guardCause l.cause || s.lad.severeHold || l.tapPark then s
    else if ntcHolds s k then modLevel k (fun l => { l with cause := 0x5, clearedAt := none }) s
    else modLevel k (fun l => { l with st := .bypassed, insGate := false, bypGate := l.bsOk, clearedAt := none }) (advanceTo (t + sec 1) s)

/-- GUARD_RELEASE: released by firmware while the scheduler runs, which requests every level that is not retired (R98, log entry 147). -/
def execGuardRelease (level : Lvl) (s : State) : Out :=
  .next (if scheduling s then guardRelease level.val s else s)

/-! Retirement (R84, R88, R90) -/

/-- Retires a level with its cause, result and held gates, writes it to MRAM where a commit may begin, and opens a shelf bypass switch
that its form bars (R88, R90, R99). -/
def retireLevel (k : Nat) (stuckIn : Bool) (cause : BitVec 4) (check : BitVec 3) (ins byp : Bool) (s : State) : State :=
  let s := dropTrim (modLevel k (Level.retire stuckIn cause check ins byp) (endAnchorOf k s))
  let s := enforceBypass (writeMram s)
  judgeRetired (raise 23 .contained cause.toNat (k + 1) s)

/-- SHELF_BYPASS_FORCE_OPEN: the hardware opens the switch within 2 us of a failed condition, whatever the command (R99). -/
def execShelfBypassForceOpen (s : State) : Out := .next (enforceBypass s)

/-! The pre-start check (R86 to R88) -/

/-- Within 30 mV. -/
def near (x y : Int) : Bool := decide ((x - y).natAbs ≤ 30000)

/-- The result of a check from its readings in uV; none when they fit no row of Table 4-5. -/
def classify (r : CheckReading) : Option (BitVec 3) :=
  let p1 := decide (300000 ≤ r.p1 ∧ r.p1 ≤ 1000000)
  let p2 := decide (-1000000 ≤ r.p2 ∧ r.p2 ≤ -300000)
  if r.cell < 500000 then some 6
  else if near r.p1 0 && near r.p2 r.cell then some 2
  else if near r.p1 (-r.cell) && near r.p2 0 then some 3
  else if p1 && p2 then
    if near r.p3 0 && near r.p4 0 then some 1
    else if near r.p4 0 then some 4
    else if near r.p3 0 then some 5
    else some 7
  else none

/-- The result with the one repetition of a reading that fits no row (R87). -/
def checkResult (a b : CheckReading) : BitVec 3 := (classify a).getD ((classify b).getD 7)

/-- A healthy result makes a level available, with its record: a retired one leaves the retired count, and a start releases a parked one
(R88, R90, R98), and a level parked for an earlier result 0x6 or 0x7 is available again; LADDER_CHECK is no start (log entry 135). -/
def passCheck (k : Nat) (s : State) : State :=
  let l := lvl s k
  let free := l.st == .retired || l.powerShort || l.failed || (s.lad.adm == .checking && releasable s k)
  let s := plainEvent 0x26 (k + 1) s
  let s := modLevel k (fun l =>
    if free then { l with st := .bypassed, check := 1, stuckIn := false, recheck := false, powerShort := false, insGate := false, bypGate := l.bsOk }
    else { l with check := 1, recheck := false }) s
  let s := if ntcHolds s k then ntcPark k s else s
  if l.st == .retired then writeMram s else s

/-- Results 0x6 and 0x7: the level is parked with both gates off and cause 0xF; fatal (R88). -/
def failCheck (k : Nat) (code : BitVec 3) (s : State) : State :=
  let was := (lvl s k).st == .retired
  let s := modLevel k (fun l => { l with st := .parked, stuckIn := false, cause := 0xF, check := code, insGate := false, bypGate := false,
                                         recheck := false, powerShort := false }) s
  let s := if was then writeMram s else s
  raise 23 .fatal code.toNat (k + 1) s

/-- The action of a result (Table 4-6). -/
def actOn (k : Nat) (code : BitVec 3) (s : State) : State :=
  if code = 1 then passCheck k s
  else if code = 2 then retireLevel k true 0xB 2 false false s
  else if code = 3 then retireLevel k false 0xC 3 false true s
  else if code = 4 then retireLevel k false 0xD 4 false true s
  else if code = 5 then retireLevel k true 0xE 5 true false s
  else failCheck k code s

/-- The shelf bypass switch is to open 10 us after the check (Table 4-7). -/
def awaitOpening (s : State) : State := { s with lad := { s.lad with adm := .opening, rampNext := s.clk.now + us 10 } }

/-- The shelf bypass switch opens 10 us after the check, every present level bypassed, parked or retired, and the start ramp begins from 0 V at the next
control period (R94, Table 4-7). -/
def openForRamp (s : State) : State :=
  let s := advanceTo s.lad.rampNext s
  if !outOrRetired s || s.lad.oos || s.lad.freezeAt.isSome || s.sup.holdup then endAdmission s
  else
    let i := absRat (reportedA s)
    let start := s.clk.now + (nextPeriod s - s.clk.ring)
    let s := openBypass s
    { s with lad := { s.lad with adm := .ramp, rampV := 0, rampNext := start + us (s.parN 0x0309), abortRef := i, needCheck := false } }

/-- The check has ended: LADDER_CHECK is answered, and an admission goes on to the opening. -/
def endCheck (s : State) : State :=
  let s := finishOpt s.lad.checkReq 0x00 (checkCodes s) s
  let s := { s with lad := { s.lad with checkReq := none } }
  if s.lad.adm == .checking then awaitOpening s else s

/-- A gate that will not turn off retires its level with cause 0xE; in a check, CHECK reports the row whose held gates match, and the
check of that level ends; a retired level is driven, and so found stuck, in its re-check alone (R84, R87, R90). -/
def gateStuck (k : Nat) (insertStuck : Bool) (s : State) : State :=
  let inCheck := s.lad.checkLeft.any (·.val == k)
  if !present s k || ((lvl s k).st == .retired && !inCheck) then s
  else
    let code : BitVec 3 := if inCheck then (if insertStuck then 5 else 4) else (lvl s k).check
    let s := { s with lad := { s.lad with checkLeft := s.lad.checkLeft.filter (·.val != k) } }
    let s := retireLevel k insertStuck 0xE code insertStuck (!insertStuck) s
    if inCheck && s.lad.checkLeft.isEmpty then endCheck s else s

/-- GATE_STUCK (R84). -/
def execGateStuck (level : Lvl) (insertStuck : Bool) (s : State) : Out :=
  .next (if s.clk.pstate = .off then s else gateStuck level.val insertStuck s)

/-- The check of one level completes (R86, R87): its result is acted on; the last one ends the check. With the shelf bypass switch open
it waits while the current is 2 A or more (R86). A fatal result ends an admission with its check. -/
def checkLevel (k : Nat) (a b : CheckReading) (s : State) : State :=
  if !s.lad.checkLeft.any (·.val == k) || !checkRuns s then s
  else if !s.lad.sby && decide (2 ≤ absRat (stringA s)) then s
  else
    let s := { s with lad := { s.lad with checkLeft := s.lad.checkLeft.filter (·.val != k) } }
    let s := actOn k (checkResult a b) s
    if s.lad.checkLeft.isEmpty then endCheck s else s

/-- PRE_START_CHECK_LEVEL (R86 to R88). -/
def execPreStartCheckLevel (level : Lvl) (first second : CheckReading) (s : State) : Out :=
  .next (checkLevel level.val first second s)

/-! Admission, the start ramp and its abort (R92 to R94) -/

/-- The shelf may start: ready, the admission flag set, out of the string with every level bypassed, parked or retired, the shelf bypass
switch closed unless it is barred, and the current quiet after a park-all (Table 4-7, R98). -/
def mayStart (s : State) : Bool :=
  s.mod.eAdmit && s.lad.adm == .out && shelfReady s && !s.lad.oos && decide (retiredCount s ≤ s.parN 0x0308) && outOrRetired s && s.lad.checkReq.isNone
  && (s.lad.sby || !bypassAllowed s) && s.lad.freezeAt.isNone && s.lad.parkRun == .none && !s.sup.holdup
  && (!s.lad.ocHold || s.lad.quietSince.any fun t => since s t (ms 10))

/-- Taps cleared by SENSE_CLEAR are tested at this start (R152). -/
def testTaps (s : State) : State :=
  let l := (List.range 17).filter fun j => s.meas.tapRetest.getLsbD j
  { s with meas := { s.meas with suspects := s.meas.suspects ++ l.filter fun j => !s.meas.suspects.contains j
                                 tapTest := s.meas.tapTest || !l.isEmpty } }

/-- Whether a pre-start check goes before this start: the first start after configuration, and every leave from parked (R86). -/
def checkNeeded (s : State) : Bool :=
  s.lad.needCheck || (presentLevels s).any fun k => releasable s k || (lvl s k).recheck

/-- The admission starts the pre-start check, or with none to run the opening of the switch (R92, R86). -/
def beginStart (s : State) : State :=
  if !mayStart s then s
  else
    let s := testTaps { s with lad := { s.lad with ocHold := false, startAbort := false } }
    if checkNeeded s && !(toCheck s).isEmpty then { s with lad := { s.lad with adm := .checking, checkLeft := toCheck s } }
    else awaitOpening s

/-- ADMISSION: in Run (R92): it starts the admission, or where the check is over opens the shelf bypass switch. -/
def execAdmission (s : State) : Out :=
  .next (if s.clk.pstate ≠ .run then s else if s.lad.adm = .opening then openForRamp s else beginStart s)

/-- The end of one ramp step, in which the output has risen by at most one cell voltage; once it stands within one trim step of the command the shelf is
admitted (R93, Table 4-7). -/
def rampStep (s : State) : State :=
  if s.lad.adm != .ramp || s.lad.freezeAt.isSome then s
  else
    let s := advanceTo s.lad.rampNext s
    let g := rampGoal s
    let v := minRat g (s.lad.rampV + rampRise s)
    { s with lad := { s.lad with rampV := v, rampNext := s.clk.now + us (s.parN 0x0309), adm := if v = g then .admitted else .ramp } }

/-- START_RAMP_STEP: in Run (R93). -/
def execStartRampStep (s : State) : Out := .next (if s.clk.pstate = .run then rampStep s else s)

/-- The abort of a start (R94): every level is bypassed with cause 0xF, the shelf bypass switch closes, and the shelf reports it. -/
def abortStart (currentMa outputMv : Int) (s : State) : State :=
  let step : Rat := (s.parN 0x030A : Rat)
  let jump := decide (s.lad.abortRef + step < absRat ((currentMa : Rat) / 1000))
  let low := decide ((outputMv : Rat) / 1000 < rampNow s / 2)
  if s.lad.adm != .ramp || !(jump && low) then s
  else
    let s := dropTrim (mapLevels (fun k l => if present s k && l.st != .retired && l.st != .parked then { l.bypass with cause := 0xF } else l) s)
    let s := closeBypass (endAdmission s)
    plainEvent 9 0 (noteReady (hostReady s) { s with lad := { s.lad with startAbort := true } })

/-- START_ABORT (R94). -/
def execStartAbort (currentMa outputMv : Int) (s : State) : Out := .next (abortStart currentMa outputMv s)

/-! The freeze (R100 to R102) -/

/-- A level in a freeze: one in trim becomes inserted if its last duty was 0.5 or more, and bypassed otherwise (R100). -/
def Level.freeze (duty : Rat) (l : Level) : Level :=
  match l.st with
  | .trim => if 1 / 2 ≤ duty then { l.insert with frozen := true } else { l.bypass with frozen := true }
  | .inserted => { l with frozen := true }
  | .bypassed => { l with frozen := true }
  | _ => l

/-- The guard freezes the ladder; a further freeze event does not restart the timer (R100, R101). -/
def freezeLadder (s : State) : State :=
  if s.lad.freezeAt.isSome then s
  else
    let d := s.mod.latched
    let s := mapLevels (fun k l => if present s k then l.freeze d else l) (count 23 s)
    { s with lad := { s.lad with freezeAt := some s.clk.now, freezeRing := s.clk.ring }, mod := { s.mod with trim := none, frozenIn := true } }

/-- FREEZE: within 2 us of a reset, a brown-out, an ACTIVATE or a forced halt (R100). -/
def execFreeze (s : State) : Out := .next (if s.clk.inReset.isSome ∨ s.dbg.forced = true then freezeLadder s else s)

/-- 40 ms after the first freeze event with no resumption the guard starts to park the ladder (R102). -/
def expireFreeze (s : State) : State :=
  match s.lad.freezeAt with
  | none => s
  | some t =>
    if s.lad.parkRun != .none then s
    else
      let s := histAdd 5 40000 (advanceTo (t + ms 40) s)
      { s with lad := { s.lad with parkRun := .freezeExpiry, parkNext := s.clk.now } }

/-- FREEZE_EXPIRY (R102). -/
def execFreezeExpiry (s : State) : Out := .next (expireFreeze s)

/-- The highest level that stands inserted or in trim. -/
def topInserted (s : State) : Option Nat :=
  (List.range 16).reverse.find? fun k => present s k && ((lvl s k).st == .inserted || (lvl s k).st == .trim)

/-- The level that the next step of a stepwise park takes: the highest inserted one after a freeze expiry; after an invalid pack response the highest
that is not parked (R102, R290, Table 7-5b). -/
def topToPark (s : State) : Option Nat :=
  if s.lad.parkRun == .freezeExpiry then topInserted s
  else (List.range 16).reverse.find? fun k => present s k && (lvl s k).st != .parked && (lvl s k).st != .retired

/-- The levels of a stepwise park stand bypassed: the rest takes its cause. After a freeze expiry the shelf bypass switch stays open; after
an invalid pack response it closes (R102, R290). -/
def endParkRun (s : State) : State :=
  match s.lad.parkRun with
  | .none => s
  | .freezeExpiry =>
    let s := parkAll 0x7 (endAnchors s)
    { s with lad := { s.lad with parkRun := .none, freezeAt := none } }
  | .invalidPack =>
    let s := parkAndClose 0x1 (yieldRole s)
    { s with lad := { s.lad with parkRun := .none } }

/-- One step of a stepwise park, one every 50 us (R102, R290). -/
def parkStep (s : State) : State :=
  if s.lad.parkRun == .none then s
  else
    let s := advanceTo s.lad.parkNext s
    let cause : BitVec 4 := if s.lad.parkRun == .freezeExpiry then 0x7 else 0x1
    let s := { s with lad := { s.lad with parkNext := s.clk.now + us 50 } }
    match topToPark s with
    | none => endParkRun s
    | some k =>
      let s := parkLevel k cause (endAnchorOf k s)
      if (topToPark s).isNone then endParkRun s else s

/-- PARK_STEP (R102, R290). -/
def execParkStep (s : State) : Out := .next (parkStep s)

/-! The pack disconnect (R89) -/

/-- The stuck-in Weir has reached zero with a pack disconnect configured on channel 5: the channel is opened (R89). -/
def disconnectPack (s : State) : State :=
  if s.par 0x030B == 1 && s.lad.disc == .none && isAdmitted s && stuckLimit s == some 0 then
    dropFuse 0xA 4 { s with lad := { s.lad with disc := .waiting, discDue := s.clk.now + ms 100 } }
  else s

/-- PACK_DISCONNECT (R89). -/
def execPackDisconnect (s : State) : Out := .next (disconnectPack s)

/-- The ladder output has fallen below 0.5 V: all levels are parked, the shelf bypass switch closes and the shelf leaves service (R89). -/
def disconnected (outputMv : Int) (s : State) : State :=
  if s.lad.disc == .waiting && decide (outputMv < 500) then
    let s := { s with lad := { s.lad with disc := .done, oos := true } }
    parkAndClose 0x1 (yieldRole s)
  else s

/-- PACK_DISCONNECT_DONE (R89). -/
def execPackDisconnectDone (outputMv : Int) (s : State) : Out := .next (disconnected outputMv s)

/-- Not fallen within 100 ms: the disconnect is taken as failed, with an event record and FSTAT EFUSE; the shelf stays in the string
(R89). -/
def disconnectTimeout (s : State) : State :=
  if s.lad.disc == .waiting then
    let s := advanceTo s.lad.discDue s
    raise 10 .contained 5 5 { s with lad := { s.lad with disc := .failed } }
  else s

/-- PACK_DISCONNECT_TIMEOUT (R89). -/
def execPackDisconnectTimeout (s : State) : Out := .next (disconnectTimeout s)

/-! Power-up of the gate supplies (R91) -/

/-- A level whose BSk has passed UVLO rising: bypassed when healthy, held with both gates off when it shows a short (R91). A retired
level holds the gates of its form, and a parked one its bypass gate, unless it rightly holds both off. -/
def Level.powerUp (insShort bypShort : Bool) (l : Level) : Level :=
  if l.st == .retired then { l with bsOk := true }.holdForm
  else if l.st == .parked then { l with bsOk := true, insGate := false, bypGate := !(l.powerShort || l.heldOff) }
  else if insShort then { l with bsOk := true, st := .parked, cause := 0xB, check := 2, insGate := false, bypGate := false, powerShort := true }
  else if bypShort then { l with bsOk := true, st := .parked, cause := 0xC, check := 3, insGate := false, bypGate := false, powerShort := true }
  else { l with bsOk := true, st := .bypassed, insGate := false, bypGate := true }

/-- The gate supplies of a set of levels come up; then the shelf bypass switch closes, unless a level shows an insert short (R91). -/
def gatesUp (bsUp insShort bypShort : BitVec 16) (s : State) : State :=
  let s := mapLevels (fun k l => if bsUp.getLsbD k && !l.bsOk then l.powerUp (insShort.getLsbD k) (bypShort.getLsbD k) else l) s
  let s := { s with lad := { s.lad with supplies := true } }
  if (presentLevels s).any fun k => (lvl s k).powerShort && (lvl s k).cause = 0xB then s else closeBypass s

/-- GATE_SUPPLY_UP (R91). -/
def execGateSupplyUp (bsUp insertShort bypassShort : BitVec 16) (s : State) : Out :=
  .next (if s.clk.pstate = .off then s else gatesUp bsUp insertShort bypassShort s)

end Sys2Proof.Machine
end

