-- ==== Sys2Proof/Machine/Image.lean ====
section
/-! DEFINITION. Patch images in their slots: header, digest, verification, and what the end of a trial does (R368 to R370, R375). -/

namespace Sys2Proof.Machine

/-! Slots -/

/-- The bytes of patch slot 0 or 1. -/
def patchSlot (s : State) (one : Bool) : Memory := if one then s.nv.slot1 else s.nv.slot0

/-- The slot that is not active; slot 0 while the ROM alone runs. -/
def inactiveSlot (s : State) : Bool := match s.upd.activeSlot with
  | some b => !b
  | none => false

/-- The pages of a slot (Table 15-1). -/
def slotPage (one : Bool) (p : Nat) : Bool := if one then decide (0x2800 ≤ p ∧ p < 0x3000) else decide (0x2000 ≤ p ∧ p < 0x2800)

/-- Writes bytes into the inactive slot; pages written anew are sound again. -/
def writeSlot (o : Nat) (bs : List Byte) (s : State) : State :=
  let one := inactiveSlot s
  let base := if one then 0x2800 else 0x2000
  let bad := s.nv.badPages.filter fun p => !(decide (base + o / 256 ≤ p) && decide (p < base + (o + bs.length + 255) / 256))
  if one then { s with nv := { s.nv with slot1 := writeBytes o bs s.nv.slot1, badPages := bad } }
  else { s with nv := { s.nv with slot0 := writeBytes o bs s.nv.slot0, badPages := bad } }

/-! Headers (Table 16-6) -/

/-- VERSION, PROTO and the band of a header. -/
def imageVersion (m : Memory) : VersionRep :=
  ⟨false, BitVec.ofNat 32 (fileField m 8 4), BitVec.ofNat 16 (fileField m 12 2), BitVec.ofNat 32 (fileField m 16 4), BitVec.ofNat 32 (fileField m 20 4)⟩

/-- The digest of everything before the signature (R368). -/
def imageDigest (m : Memory) : List Byte := sha256 (readBytes 0 (fileField m 24 4 - 96) m)

/-- DIGEST_L: bytes 28 to 31 of the digest, little-endian (R368). -/
def digestLow (m : Memory) : BitVec 32 := BitVec.ofNat 32 (leNat ((imageDigest m).drop 28))

/-- MAGIC, FORMAT, ROM and LENGTH are as in Table 16-6, STEPS includes stepping C, and VERSION is not below the rollback floor (R369). -/
def headerOk (floor : BitVec 32) (m : Memory) : Bool :=
  let len := fileField m 24 4
  fileField m 0 4 == 0x48544541 && fileField m 4 2 == 1 && fileField m 6 1 == 3 && decide (256 ≤ len ∧ len ≤ 0x80000) && len % 256 == 0
  && (fileField m 28 2).testBit 2 && decide (floor.toNat ≤ fileField m 8 4)

/-- An image verifies (R369): its header holds, its pages are sound, and its signature is valid under Loircen's image key. -/
def imageVerifies (s : State) (one : Bool) : Bool :=
  let m := patchSlot s one
  let len := fileField m 24 4
  headerOk s.key.floor m && !s.nv.badPages.any (slotPage one)
  && ecdsaVerify p384 (Config.loircenKey 0) (imageDigest m) (beNat (readBytes (len - 96) 48 m)) (beNat (readBytes (len - 48) 48 m))

/-- The inactive slot is verified, or marked failed (R369, Table 14-12). -/
def verifyInactive (s : State) : State :=
  let m := patchSlot s (inactiveSlot s)
  if imageVerifies s (inactiveSlot s) then
    { s with upd := { s.upd with img := .verified, imgInfo := imageVersion m, imgPatch := BitVec.ofNat 8 (fileField m 7 1),
                                 imgFloor := BitVec.ofNat 32 (fileField m 32 4), imgDigest := digestLow m,
                                 chunks := List.range (fileField m 24 4 / 256) } }
  else { s with upd := { s.upd with img := .failed } }

/-! Which image runs (R370, R375) -/

/-- The version data of a slot as the active one; the ROM alone has the whole band and PATCH 0 (R370). -/
def runSlot (slot : Option Bool) (s : State) : State :=
  match slot with
  | some b => { s with upd := { s.upd with activeSlot := some b, active := imageVersion (patchSlot s b), patch := BitVec.ofNat 8 (fileField (patchSlot s b) 7 1) } }
  | none => { s with upd := { s.upd with activeSlot := none, active := VersionRep.reset, patch := 0 } }

/-- A controller reset or a brown-out ends a trial: the previous slot is active again, the floor is not raised, and an event record says
so (R375). The image stays in its slot, verified as it was. -/
def dropTrial (s : State) : State :=
  match s.upd.trial with
  | none => s
  | some _ =>
    let info := s.upd.active
    let p := s.upd.patch
    let m := patchSlot s (s.upd.activeSlot.getD false)
    let s := runSlot s.upd.prevSlot s
    let u := { s.upd with
      trial := none, img := .verified, imgInfo := info, imgPatch := p, imgFloor := s.upd.floorNew, imgDigest := digestLow m
      chunks := List.range (fileField m 24 4 / 256) }
    plainEvent 0x24 0 { s with upd := u }

/-- At a power-on reset the active image is verified; if it fails, the other slot runs when it verifies, and otherwise the ROM alone
(R375). -/
def bootImage (s : State) : State :=
  match s.upd.activeSlot with
  | none => s
  | some b =>
    if imageVerifies s b then s
    else
      let failed := fun (st : State) => { st with upd := { st.upd with img := .failed, trial := none, chunks := [] } }
      failed (if imageVerifies s !b then runSlot (some !b) s else runSlot none s)

end Sys2Proof.Machine
end

