-- ==== Sys2Proof/Machine/Recorder.lean ====
section
/-! DEFINITION. The Sediment recorder's records and captures, the journal's replay and compaction, and the scrubber
(15_storage_and_recorder.md). -/

namespace Sys2Proof.Machine

/-! Records (R345, R346) -/

/-- A time mark (Table 15-5); before ring time has been acquired it carries none, and NO_TIME (R345, R346). -/
def timeMark (s : State) : State := putRecord 0x04 0xFF false (leBytes 8 (stampRing s)) s

/-- TIME_MARK: 600 s after the last record that carries a full ring time, in Run (R346). -/
def execTimeMark (s : State) : Out :=
  .next (match s.nv.lastFullTime with
    | some t => if s.clk.pstate = .run then timeMark (advanceRing (t + sec 600) s) else s
    | none => s)

/-- The last sample of a present cell in 0.1 mV, as captures take it, blanked or not (R131). -/
def cellTenths (s : State) (k : Nat) : Nat :=
  if present s k then reportNat 16 (((s.meas.words.getD k CellWord.reset).value.toNat : Rat) / 5) else 0

/-- The last usable sample of a cell in 0.1 mV, as reports take it (R131, R132). -/
def usableTenths (s : State) (k : Nat) : Nat := reportNat 16 ((lastUsable s k).getD 0 * 10000)

/-- The present levels with a usable sample, in rising order of their cell voltage. -/
def byVoltage (s : State) : List Nat :=
  ((presentLevels s).filter fun k => (lastUsable s k).isSome).mergeSort fun a b => decide (usableTenths s a ≤ usableTenths s b)

/-- The highest of the cell temperatures that have been read [0.01 degC]. -/
def hottestCell (s : State) : Int :=
  (highest ((presentLevels s).filterMap fun k => ((cellNtc s k).bind (·.temp)).map fun t => roundRat (t * 100))).getD 0

/-- CURRENT of a snapshot or a capture sample: with the shelf bypass switch closed the string current comes from the ring (R17, log entry 145). -/
def currentBytes (s : State) : List Byte :=
  if s.lad.sby then leInt 3 (satCurrent (Config.ringCurrent s.clk.now)).1 else bvBytes 3 s.meas.curWord

/-- The payload of a periodic snapshot (Table 15-5). -/
def snapshotPayload (s : State) : List Byte :=
  let lo := (byVoltage s).headD 0
  let hi := (byVoltage s).getLastD 0
  leBytes 8 (stampRing s) ++ currentBytes s ++ leBytes 2 (reportNat 16 (s.meas.stack * 100))
  ++ leBytes 2 (usableTenths s lo) ++ leBytes 2 (usableTenths s hi) ++ leBytes 1 (lo + 1) ++ leBytes 1 (hi + 1)
  ++ leInt 2 (hottestCell s) ++ leInt 1 ((highest (ctrlValid s)).getD 0 / 100) ++ leInt 1 ((highest (powerValid s)).getD 0 / 100)
  ++ bvBytes 4 (fstatWord s) ++ leBytes 2 (modWord s) ++ bvBytes 4 s.cfg.gen ++ bvBytes 4 s.rack.obeyed

/-- A periodic snapshot at its interval; 0 turns it off (R346, Table 14-15). -/
def takeSnapshot (s : State) : State :=
  if s.par 0x0901 = 0 then s
  else
    let s := advanceTo s.nv.snapAt s
    putRecord 0x03 0xFF false (snapshotPayload s) { s with nv := { s.nv with snapAt := s.clk.now + sec (s.parN 0x0901) } }

/-- PERIODIC_SNAPSHOT (R346). -/
def execPeriodicSnapshot (s : State) : Out := .next (if s.clk.pstate = .run ∨ s.clk.pstate = .watch then takeSnapshot s else s)

/-- Writes the records that wait, oldest first. -/
def writeWaiting (s : State) : State :=
  let n := s.nv.buffer.length
  let last := (s.nv.buffer.getLast?.map (·.seq)).getD 0
  if n = 0 then s
  else countBy 74 n { s with nv := { s.nv with recs := (s.nv.buffer.reverse ++ s.nv.recs).take (recCapacity last), buffer := []
                                               recPtr := s.nv.buffer.foldl (fun l r => enterPage r.seq l) s.nv.recPtr } }

/-- Writes the last-fault records that wait (R274, R286). -/
def writeFaults (s : State) : State :=
  { s with aux := { s.aux with faults := s.aux.waiting.foldl (fun l p => storeFault p.1 p.2 l) s.aux.faults, waiting := [] } }

/-- Writes the cuts that wait, each into slot ORDER mod 256 (R395). -/
def writeCuts (s : State) : State :=
  let put := fun (l : List Cut) (c : Cut) => c :: l.filter fun d => d.order.toNat % 256 != c.order.toNat % 256
  { s with nv := { s.nv with cuts := s.nv.cutWait.foldl put s.nv.cuts, cutWait := [] } }

/-- A journal group with both copies rewritten from a valid one (R343). -/
def JGroup.repair (g : JGroup) : JGroup := if g.ok0 || g.ok1 then { g with ok0 := true, ok1 := true } else g

/-- Failed copies of the journal's groups are rewritten from the valid ones, where a write may begin (R286, R339, R343). -/
def repairJournal (s : State) : State :=
  if canWrite s then
    { s with nv := { s.nv with regA := { s.nv.regA with groups := s.nv.regA.groups.map JGroup.repair },
                               regB := { s.nv.regB with groups := s.nv.regB.groups.map JGroup.repair } } }
  else s

/-- The pages that wait to be remapped (R286, R340). -/
def remapWaiting (s : State) : State := s.nv.remapDue.foldl (fun st p => remapPage p st) { s with nv := { s.nv with remapDue := [] } }

/-- DEFERRED_RECORD_FLUSH (R286, R346, R395): once a write may begin, what waits is written. -/
def execDeferredRecordFlush (s : State) : Out :=
  .next (if canWrite s then payOwed (remapWaiting (repairJournal (writeCuts (writeFaults (writeWaiting s))))) else s)

/-! Captures (R347) -/

/-- SFLAGS of a capture sample (Table 15-5). -/
def sampleFlags (s : State) : Nat := currentWord s / 64 % 2 + bit ((currentWord s).testBit 5) 1 + bit ((currentWord s).testBit 2) 2 + bit ((currentWord s).testBit 4) 3

/-- The payload of a capture sample; an absent level has no input (R15, Table 15-5). -/
def samplePayload (s : State) : List Byte :=
  ((List.range 16).flatMap fun k => leBytes 2 (cellTenths s k)) ++ currentBytes s
  ++ leBytes 2 (maskOf (mapLvl s.meas.words fun k w => present s k && w.ins)) ++ leBytes 2 (maskOf (mapLvl s.meas.words fun k w => present s k && w.blank))
  ++ leBytes 1 (sampleFlags s)

/-- A capture begins: the trigger record, then the samples held, oldest first; one that is lost does not count as written (R347). -/
def beginCapture (cause : Nat) (s : State) : State :=
  let seq := s.nv.recNext
  let s := putRecord 0x05 0xFF false (leBytes 8 (stampRing s) ++ leBytes 1 cause) s
  let n := s.nv.recNext
  let s := s.nv.capRing.reverse.foldl (fun st c => putRecordAt c.time 0x06 0xFF false c.payload st) s
  { s with nv := { s.nv with capture := .running, capTrig := seq, capWritten := (s.nv.recNext - n).toNat, capLeft := 1000 } }

/-- CAPTURE_TRIGGER: the cause is a bit of parameter 0x0902; in a capture, its hold-off, or outside Run nothing is captured (R347). -/
def execCaptureTrigger (cause : Fin 4) (s : State) : Out :=
  .next (if s.clk.pstate = .run ∧ s.nv.capture = .idle ∧ (s.parN 0x0902).testBit cause.val then beginCapture (2 ^ cause.val) s else s)

/-- A capture sample is taken at sample instant A of every fifth period, and written while a capture has samples to come (R347). -/
def takeCaptureSample (s : State) : State :=
  let s := advanceRing (instantFrom 50000 2500 (max s.clk.ring (((s.nv.capRing.head?.map (·.time)).getD 0) + 1))) s
  let c : CapSample := ⟨s.clk.ring, samplePayload s⟩
  let s := { s with nv := { s.nv with capRing := (c :: s.nv.capRing).take 1000 } }
  if s.nv.capture = .running ∧ 0 < s.nv.capLeft then
    let t := putRecordAt c.time 0x06 0xFF false c.payload { s with nv := { s.nv with capLeft := s.nv.capLeft - 1 } }
    { t with nv := { t.nv with capWritten := t.nv.capWritten + (t.nv.recNext - s.nv.recNext).toNat } }
  else s

/-- CAPTURE_SAMPLE (R347). -/
def execCaptureSample (s : State) : Out := .next (if s.clk.pstate = .run then takeCaptureSample s else s)

/-- The capture samples that still wait in the shore buffer are discarded (R347). -/
def dropSamples (s : State) : State :=
  let keep := s.nv.buffer.filter fun r => r.kind != 0x06
  { s with nv := { s.nv with buffer := keep, capWritten := s.nv.capWritten - (s.nv.buffer.length - keep.length) } }

/-- The capture end record is written, the hold-off runs for 10 s, and CAPTURE gets its final response (R347). cut: at hold-up entry, which
discards the samples not yet written. -/
def endCapture (cut : Bool) (s : State) : State :=
  let s := if cut then dropSamples s else s
  let s := putRecord 0x07 0xFF false (bvBytes 4 s.nv.capTrig ++ leBytes 2 s.nv.capWritten ++ leBytes 1 (bit cut 0)) s
  let s := finishOpt s.nv.capReq 0x00 (bvBytes 4 s.nv.capTrig) s
  { s with nv := { s.nv with capture := .holdoff, capHold := s.clk.now + sec 10, capLeft := 0, capReq := none } }

/-- A capture that Run does not carry to its end, at Still entry or a reset, ends with its record and the count so far; CUT names hold-up alone
(DESIGN CHOICE, log entry 182). -/
def stopCapture (s : State) : State := if s.nv.capture == .running then endCapture false s else s

/-- CAPTURE_END: after the 1,000 samples from the trigger (R347). -/
def execCaptureEnd (s : State) : Out := .next (if s.nv.capture = .running ∧ s.nv.capLeft = 0 then endCapture false s else s)

/-- CAPTURE_HOLDOFF_END (R347). -/
def execCaptureHoldoffEnd (s : State) : Out :=
  .next (if s.nv.capture = .holdoff then
      let s := advanceTo s.nv.capHold s
      { s with nv := { s.nv with capture := .idle } }
    else s)

/-! The journal (R343, R344) -/

/-- The region that is not active. -/
def otherRegion (s : State) : JRegion := if s.nv.activeB then s.nv.regA else s.nv.regB

/-- Replaces the region that is not active. -/
def setOther (r : JRegion) (s : State) : State :=
  if s.nv.activeB then { s with nv := { s.nv with regA := r } } else { s with nv := { s.nv with regB := r } }

/-- Groups of the active region with a SEQ newer than the newest of the other region (R344, step 3). -/
def toCopy (s : State) : List JGroup :=
  (activeRegion s).groups.filter fun g => (otherRegion s).groups.all fun o => newer g.seq o.seq

/-- One slice of a compaction (R344); what it reads of the journal is checked, and of an uncorrectable copy the other is used (R339, Table
15-2). -/
def compactSlice (step : Nat) (sq : BitVec 32) (s : State) : State :=
  let s := if step = 2 ∨ step = 3 then (checkedRead 0 s).2 else s
  let goto := fun (n : Nat) (st : State) => { st with nv := { st.nv with compact := some (n, st.nv.compact.elim 0 (·.2)) } }
  if step ≤ 1 then { s with nv := { s.nv with compact := some (2, s.nv.jseq) } }
  else if step = 2 then
    let items := regionItems { activeRegion s with groups := (activeRegion s).groups.filter fun g => !newer g.seq sq }
    let gen := (((activeRegion s).groups.find? fun g => g.seq == sq).map (·.gen)).getD s.cfg.gen
    goto 3 (setOther { otherRegion s with valid := false, groups := [⟨0x4, sq, itemBytes s items, gen, true, true, items⟩] } s)
  else if step = 3 then
    goto 4 (setOther { otherRegion s with groups := (otherRegion s).groups ++ toCopy s } s)
  else if step = 4 then
    if (toCopy s).isEmpty then
      let s := setOther { otherRegion s with valid := true, firstSeq := sq, headed := true } s
      goto 5 { s with nv := { s.nv with activeB := !s.nv.activeB } }
    else goto 3 s
  else
    let s := setOther { otherRegion s with valid := false } s
    let s := count 72 { s with nv := { s.nv with compact := none, compactions := s.nv.compactions + 1 } }
    let s := finishOpt s.nv.compactReq 0x00 (leBytes 1 (fillPercent s)) s
    { s with nv := { s.nv with compactReq := none } }

/-- COMPACTION_SLICE (R344): only while a write may begin. -/
def execCompactionSlice (s : State) : Out :=
  .next (match s.nv.compact with
    | some p => if canWrite s then compactSlice p.1 p.2 s else s
    | none => s)

/-- The groups that a replay accepts from a position on, and whether a copy of one has failed (R343). -/
def acceptGroups (want : BitVec 32) : List JGroup → List JGroup × Bool
  | [] => ([], false)
  | g :: rest =>
    let next := match rest with
      | h :: _ => h.ok0 && h.seq == want + 1
      | [] => false
    if g.seq == want && (g.ok1 || (g.ok0 && next)) then
      let r := acceptGroups (want + 1) rest
      (g :: r.1, r.2 || !(g.ok0 && g.ok1))
    else ([], false)

/-- A region as it replays; its first group must be a base with SEQ equal to FIRST_SEQ (R343). -/
def replayRegion (r : JRegion) : JRegion × Bool :=
  match r.groups with
  | g :: _ =>
    if g.kind = 0x4 then
      let a := acceptGroups r.firstSeq r.groups
      ({ r with groups := a.1 }, a.2)
    else ({ r with groups := [] }, false)
  | [] => (r, false)

/-- The counters that a group of counters holds, to which the charge counted since the power-on reset is added (R11, R155), and the highest ring
time known, which is 10 s past the committed one (R157, R245). -/
def restoreCounters (c : List (Nat × Nat) × Int × Int × Nat) (s : State) : State :=
  let take := fun (k : Nat) (a : CellAcc) =>
    let p := c.1.getD k (0, 0)
    { a with qin := (satGross (p.1 + a.qin)).1, qout := (satGross (p.2 + a.qout)).1 }
  { s with chg := { s.chg with cells := mapLvl s.chg.cells take, sNet := (satSigned (c.2.1 + s.chg.sNet)).1, bNet := (satSigned (c.2.2.1 + s.chg.bNet)).1 },
           clk := { s.clk with high := max s.clk.high (c.2.2.2 + sec 10) } }

/-- The level record that MRAM gives back after a power-on reset: the retirement with its form, cause and mark, and the gates that it
holds; CHECK is of the shore class and stays at its reset value (Table 4-2, Table 4-6, R90). -/
def Level.restored (saved now : Level) : Level :=
  if saved.st == .retired then
    { now with st := .retired, stuckIn := saved.stuckIn, cause := saved.cause, recheck := saved.recheck, powerShort := false }.holdForm
  else now

/-- The account of a cell with its journal-class part at its reset value; its counts and its span are not of that class (Table 3-9). -/
def CellAcc.noJournal (a : CellAcc) : CellAcc :=
  let z := CellAcc.reset
  { a with full := z.full, empty := z.empty, cap := z.cap, capLearned := z.capLearned, spanFirst := z.spanFirst, qb := z.qb, pb := z.pb }

/-- The journal class returns to its reset value, until the journal is replayed (Table 0-5, Table 3-9): the configuration with its
generation, the leader epoch, anchors, capacities and the binding, learned bins and step resistances. The hardware that keeps running keeps
the values in force (log entry 35). -/
def loseJournalled (s : State) : State :=
  let z := State.reset
  { s with
    clk := { s.clk with replayed := false }
    cfg := { s.cfg with params := [], gen := z.cfg.gen, pending := [], pendingAt := 0, hasPending := false, order := none }
    chg := { s.chg with cells := s.chg.cells.map CellAcc.noJournal, packId := 0, bound := false, bindTime := 0 }
    meas := { s.meas with binIn := z.meas.binIn, binBy := z.meas.binBy, steps := s.meas.steps.map fun r => { r with rStep := StepSample.reset.rStep } }
    rack := { s.rack with obeyed := 0, highEpoch := 0, everObeyed := false } }

/-- The replay is the first since power-on reset, whatever resets have come since: what survives every other reset is restored too
(Table 3-9, R13). -/
def coldStart (s : State) : Bool := s.clk.coldPending

/-- The account of a cell after a replay: the journal's anchors, capacity and reference; after any reset but power-on its charge counts
and the state of its span stand as they are (Table 3-9). -/
def CellAcc.restored (cold : Bool) (saved now : CellAcc) : CellAcc :=
  let a := { now with full := saved.full, empty := saved.empty, cap := saved.cap, capLearned := saved.capLearned, spanFirst := saved.spanFirst,
                      qb := saved.qb, pb := saved.pb }
  if cold then { a with spanOpen := saved.spanOpen, spanStarted := saved.spanStarted, spanFull := saved.spanFull, spanAt := saved.spanAt,
                        spanQ := saved.spanQ, spanDq := saved.spanDq, srcTime := saved.srcTime, dqCause := saved.dqCause }
  else a

/-- The charge accounts that the journal gives (R157, R164, Table 3-9). -/
def restoreAccounts (i : JItems) (s : State) : State :=
  let saved := i.accounts.getD []
  let s := { s with chg := { s.chg with cells := mapLvl s.chg.cells fun k now => CellAcc.restored (coldStart s) (saved.getD k CellAcc.reset) now } }
  match i.counters with
  | some c => if coldStart s then restoreCounters c s else s
  | none => s

/-- The levels beside a tap whose TAP_OPEN stands are parked for it, and no start releases them (R98, R152). -/
def parkBesideTaps (s : State) : State :=
  mapLevels (fun k l => if present s k && (s.meas.tapOpen.getLsbD k || s.meas.tapOpen.getLsbD (k + 1)) then { l.park 0x1 with tapPark := true } else l) s

/-- What MRAM gives back directly at the first replay after power-on reset: retirements, which may pass the limit of R90, and TAP_OPEN with the levels
parked for it (R90, R98, R152). -/
def restoreMram (s : State) : State :=
  if coldStart s then
    judgeService <| enforceBypass (parkBesideTaps (mapLevels (fun k now => Level.restored (s.nv.levels.getD k Level.reset) now)
      { s with meas := { s.meas with tapOpen := s.nv.tapOpen } }))
  else s

/-- The state that the items of the journal give (R341, R343); a value that no group holds stands at its reset value (Table 0-5). -/
def restoreItems (i : JItems) (s : State) : State :=
  let pend := i.pending.getD ([], 0)
  let pack := i.pack.getD (0, false, 0)
  let bins := i.bins.getD (Measure.reset.binIn, Measure.reset.binBy)
  let rs := i.stepRs.getD []
  let s := restoreMram (restoreAccounts i s)
  nominalCaps { s with
    cfg := { s.cfg with params := i.params.getD [], effective := i.params.getD [], pending := pend.1, pendingAt := pend.2,
                        hasPending := !pend.1.isEmpty, order := i.order.filter fun o => o.2 != 0 }
    meas := { s.meas with binIn := bins.1, binBy := bins.2
                          steps := mapLvl s.meas.steps fun k r => { r with rStep := rs.getD k StepSample.reset.rStep } }
    chg := { s.chg with packId := pack.1, bound := pack.2.1, bindTime := pack.2.2 }
    rack := { s.rack with obeyed := i.epoch.getD 0, highEpoch := i.epoch.getD 0, everObeyed := i.epoch.isSome } }

/-- The active region at a replay: the valid one, the newer FIRST_SEQ when both are valid (R343). Two equal ones stand where a base that was the
first commit is compacted and step 5 has not come: the new region, the one made active last, is chosen (R344). -/
def chooseRegion (s : State) : Option Bool :=
  if s.nv.regA.valid && s.nv.regB.valid then
    some (if s.nv.regB.firstSeq = s.nv.regA.firstSeq then s.nv.activeB else newer s.nv.regB.firstSeq s.nv.regA.firstSeq)
  else if s.nv.regA.valid then some false
  else if s.nv.regB.valid then some true
  else none

/-- The journal is replayed (R343): with no valid header it is empty, and every value takes its default; so it is with none of its groups accepted,
for then no base stands (log entry 183). A copy repaired raises FSTAT JOURNAL; counters from a final counter record set HOLDUP_CUT (R156). -/
def replay (s : State) : State :=
  let s := (checkedRead 0 s).2
  let s := { s with clk := { s.clk with replayed := true }, nv := { s.nv with compact := none } }
  let done := fun (s : State) => { s with clk := { s.clk with coldPending := false } }
  done <| match chooseRegion s with
  | none => copyGuard <| restoreItems JItems.reset { s with nv := { s.nv with empty := true, jseq := 0xFFFFFFFF }, cfg := { s.cfg with gen := 0 } }
  | some b =>
    let s := { s with nv := { s.nv with activeB := b, empty := false } }
    let p := replayRegion (activeRegion s)
    let s := repairJournal (setActive p.1 s)
    let s := { s with nv := { s.nv with empty := p.1.groups.isEmpty } }
    let last := p.1.groups.getLast?
    let s := { s with nv := { s.nv with jseq := (last.map (·.seq)).getD (p.1.firstSeq - 1) }, cfg := { s.cfg with gen := (last.map (·.gen)).getD 0 } }
    let i := regionItems p.1
    let s := restoreItems i s
    let s := disqualifyAll 3 { s with chg := { s.chg with holdupCut := if coldStart s then i.cut.getD false else s.chg.holdupCut } }
    startCompaction (copyGuard (if p.2 then raise 13 .corrected 1 0 s else s))

/-- JOURNAL_REPLAY: once at every start (R343). -/
def execJournalReplay (s : State) : Out := .next (if s.clk.replayed then s else replay s)

/-! The scrubber (R339, R340) -/

/-- Marks one record of a recorder page as damaged: which of the page's four slots holds the group is not stated (log entry 2). -/
def damageRecord (page : Nat) (s : State) : State :=
  let p := takeFree s
  let slot := 4 * (page - 0x4000) + Config.freeNat p.1 % 4
  { p.2 with nv := { p.2.nv with recs := p.2.nv.recs.map fun r => if r.seq.toNat % 65536 = slot then { r with intact := false } else r } }

/-- The journal group of a list that lies over an offset of its half, the first group at off (R341). -/
def groupOver (at_ : Nat) : List JGroup → Nat → Nat → Option Nat
  | [], _, _ => none
  | g :: gs, off, n => if at_ < off then none else if at_ < off + groupBytes g.len then some n else groupOver at_ gs (off + groupBytes g.len) (n + 1)

/-- An uncorrectable group in a journal page: the copy of the journal group over it has failed, and is rewritten from the other (Table 15-2, R343). Which
16 bytes of the page they are is not stated (log entry 2); of a header the other copy stands. -/
def journalLost (page : Nat) (s : State) : State :=
  let p := takeFree s
  let at_ := page % 0x100 * 256 + 16 * (Config.freeNat p.1 % 16)
  let fail := fun (g : JGroup) => if page % 0x200 < 0x100 then { g with ok0 := false } else { g with ok1 := false }
  let r := fun (r : JRegion) => match groupOver at_ r.groups 0x100 0 with
    | some n => { r with groups := r.groups.modify n fail }
    | none => r
  let s := p.2
  repairJournal (if page < 0x200 then { s with nv := { s.nv with regA := r s.nv.regA } } else { s with nv := { s.nv with regB := r s.nv.regB } })

/-- An uncorrectable group in the recorder pointer's page: the other copy stands (Table 15-2). Which copy fails is not stated (log entry 2). -/
def pointerLost (s : State) : State :=
  let p := takeFree s
  { p.2 with nv := { p.2.nv with recPtr := p.2.nv.recPtr.set (Config.freeNat p.1 % 2) none } }

/-- The outcome of an uncorrectable group in a page (Table 15-2). -/
def pageLost (page : Nat) (s : State) : State :=
  if page < 0x400 then journalLost page s
  else if page = 0x504 then pointerLost s
  else
  if 0x4000 ≤ page then raise 12 .contained 1 0 (damageRecord page s)
  else if 0x3000 ≤ page then { s with nv := { s.nv with cuts := s.nv.cuts.filter fun c => c.order.toNat % 256 != (page - 0x3000) / 16 } }
  else if 0x2000 ≤ page then { s with nv := { s.nv with badPages := (page :: s.nv.badPages).eraseDups } }
  else if 0x1800 ≤ page ∧ page < 0x1C00 then
    { s with eng := { s.eng with learned := s.eng.learned.set ((page - 0x1800) / 64) none } }
  else if 0x1000 ≤ page ∧ page < 0x1800 then { s with nv := { s.nv with badPages := (page :: s.nv.badPages).eraseDups } }
  else s

/-- The scrubber reads one page (R339, R340); the keys and life-cycle region is page 0x400 to 0x4FF, where an uncorrectable group is
fatal. -/
def scrub (corrected bad : Bool) (s : State) : State :=
  let s := advanceTo (instantFrom (ms 10) 0 (s.clk.now + 1)) s
  let page := s.nv.scrubPage
  let q := pageCorrupted page s
  let inj := q.1 || q.2.1
  let corrected := corrected || q.1
  let bad := bad || q.2.1
  let s := q.2.2
  let again := s.nv.weak.contains page
  let weak := s.nv.weak.filter (· != page)
  let s := { s with nv := { s.nv with scrubPage := (page + 1) % 32768, weak := if corrected && !bad then page :: weak else weak } }
  let s := if corrected then raiseWith 14 .corrected 0 0 inj false (count 77 s) else s
  if bad then
    let keys := decide (0x400 ≤ page ∧ page < 0x500)
    remapPage page (raiseWith 14 (if keys then .fatal else .contained) 1 0 inj false (count 78 (pageLost page s)))
  else if corrected && again then remapPage page s
  else s

/-- SCRUB_PAGE (R340): in Watch and Run. -/
def execScrubPage (corrected uncorrectable : Bool) (s : State) : Out :=
  .next (if s.clk.pstate = .run ∨ s.clk.pstate = .watch then scrub corrected uncorrectable s else s)

end Sys2Proof.Machine
end

