-- ==== Sys2Proof/Machine/Sequencer.lean ====
section
/-! DEFINITION. The shore sequencer's operations (11_aux_power.md): starting and stopping channels, latches and trips, dependants,
shedding, last-fault and sequencing records. -/

namespace Sys2Proof.Machine

/-! Records (R267, R274) -/

/-- FLT_N is low, by the SZ716 or by another device (R266). -/
def fltLow (s : State) : Bool := s.aux.fltExt || s.aux.fltOwn.isSome

/-- An own fault event pulls FLT_N where the assertion mask selects its channel; FLT_N falling has its record, and a restart delay that was
running starts anew when FLT_N rises (R266, R267). -/
def pullFlt (maskBit : Nat) (s : State) : State :=
  let t := assertFlt maskBit s
  if t.aux.fltOwn.isSome && !fltLow s then seqRecord 0x4 0 { t with aux := { t.aux with restartAt := none } } else t

/-- The channel number of a last-fault record (Table 11-7): regulators 0 to 3, eFuses 0x11 to 0x16, by position 0 to 9. -/
def faultChannel (i : Nat) : Nat := if i < 4 then i else 0x11 + (i - 4)

/-- Writes the last-fault record of channel position i, or lets it wait (R274, R286). -/
def putLastFault (i : Nat) (cause : BitVec 4) (r : ChanReading) (fsw rflags : Nat) (s : State) : State :=
  let old := ((s.aux.waiting.reverse.find? (·.1 == i)).map (·.2)).getD (standingFault s i)
  let f : LastFault := ⟨true, old.seq + 1, s.clk.opsec, BitVec.ofNat 32 (stampRing s), cause.setWidth 8, r.vin, r.vout, r.ipeak, r.duty,
    BitVec.ofNat 16 fsw, r.temp, BitVec.ofNat 8 rflags, if old.count = 0xFFFF then 0xFFFF else old.count + 1⟩
  if canWrite s then { s with aux := { s.aux with faults := storeFault i f s.aux.faults } }
  else if bufferFull s then recordLost s
  else { s with aux := { s.aux with waiting := s.aux.waiting ++ [(i, f)] } }

/-! Requests that wait for a channel (R328) -/

/-- Ends the requests that wait for channel 3. -/
def answerRail (s : State) : State :=
  let s' := { s with aux := { s.aux with railReq := [] } }
  s.aux.railReq.foldl (fun st r => finish r 0x00 (leBytes 2 (railWord s 3)) st) s'

/-! Starting channels (R256, R269) -/

/-- The frequency in use: the setting, capped at 1 MHz in the 60 V to 65 V band (R34, R260). -/
def fswOf (s : State) (x : Nat) : Nat := let f := 100 * railPar s x 0; if s.sup.band = 2 then min f 1000 else f

/-- STEP of a regulator channel's sequencing record (Table 11-6). -/
def railStep (x : Nat) : Nat := if x = 3 then 0x03 else 0x00

/-- Starts a regulator channel, with its sequencing record: its high-side check runs first (R256, R267). With the input of channel 2 or 3 below its
UVLO, in hold-up, the start waits (Table 11-3). Channel 2 is non-synchronous until VA5 has reached 90 % (R252). -/
def startRail (x : Nat) (wake : Bool) (s : State) : State :=
  let v := if x = 3 then 10 * s.parN 0x0835 else (railOf s x).vset
  if 2 ≤ x && s.sup.holdup then
    let s := modRail x (fun r => { r with st := .off, pg := false, cause := 0, startAt := some s.clk.now }) s
    if x = 3 && !s.aux.shed.contains 0x03 then { s with aux := { s.aux with shed := 0x03 :: s.aux.shed } } else s
  else
    seqRecord 0x1 (railStep x) <|
      modRail x (fun r => { r with st := .checking, pg := false, cause := 0, wakeStart := wake, checked := false, vset := v, fsw := fswOf s x,
                                   rampFrom := s.clk.now, rampTo := 0, freqCap := decide (fswOf s x < 100 * railPar s x 0), startAt := none
                                   nonSync := x == 2 && decide (10 * r.vout < 9 * v) }) s

/-- The time of the high-side check of a channel (Table 11-3). -/
def checkNs (s : State) (x : Nat) : Nat :=
  let vin := if x < 2 then (railOf s 2).vout else s.sup.vor
  us (if 1000 + (railOf s x).vout ≤ vin then 50 else 200)

/-- Soft start raises the reference from the present output over the soft-start time in force, or over 80 us in the wake start (R257). The channel
takes its switching edges from the reference that holds (R259). -/
def softStart (x : Nat) (s : State) : State :=
  modRail x (fun r => { r with st := .softStart, checked := false, vfrom := r.vout, rampFrom := s.clk.now, sync := railReference s
                               edge := railEdge (railPar s x 4) r.fsw
                               rampTo := s.clk.now + us (if r.wakeStart then 80 else 100 * railPar s x 1) }) s

/-- Starts eFuse channel x + 1: EGx is held off for 1 ms first (R269). -/
def startFuse (x : Nat) (s : State) : State :=
  seqRecord 0x1 (0x21 + x) (modFuse x (fun f => { f with st := .preCheck, pg := false, cause := 0, since := s.clk.now }) s)

/-- The source of an eFuse channel is in PG: channel 3, or external (R263). -/
def sourceGood (s : State) (x : Nat) : Bool := fusePar s x 7 != 3 || (railOf s 3).pg

/-- An eFuse channel may turn on: its source is in PG, channels 5 and 6 have permission, it is neither tripped nor damaged, and it is not
held off for the Operator (R263, R273, Table 12-5). -/
def mayTurnOn (s : State) (x : Nat) : Bool :=
  let f := fuseOf s x
  sourceGood s x && (x < 4 || f.permit) && f.st != .tripped && f.st != .damaged && !s.flt.fuseHold.getLsbD (x + 1)

/-! Stopping channels (R263, R264) -/

/-- The eFuses fed by channel 3, in reverse list order (R263). -/
def dependants (s : State) : List Nat :=
  let order := (paramIn s.cfg.effective 0x08C0).reverse.filterMap fun c => if 0x21 ≤ c ∧ c ≤ 0x26 then some (c - 0x21).toNat else none
  (order ++ (List.range 6).reverse.filter fun x => !order.contains x).filter fun x => fusePar s x 7 == 3

/-- Channel 3 is lost to its dependants: each takes cause 0x7 (R263). -/
def dropDependants (s : State) : State := (dependants s).foldl (fun st x => dropFuse 0x7 x st) s

/-- Turns a regulator channel off with a cause, without a record. -/
def dropRail (x : Nat) (cause : BitVec 4) (s : State) : State :=
  modRail x (fun r => { r with st := .off, pg := false, sync := false, slew := false, dropout := false, cause := cause, wakeStart := false,
                               checked := false, startAt := none }) s

/-- Shuts a regulator channel down with its sequencing record; the step of channel 3 is complete as failed where it was starting (R262, R267). -/
def shutRail (x : Nat) (cause : BitVec 4) (s : State) : State :=
  let st := (railOf s x).st
  if st == .off || st == .latchedOff then s
  else
    let t := seqRecord 0x3 (railStep x) (dropRail x cause s)
    if x = 3 && stepStarting s 0x03 then stepDone t else t

/-- Latches a regulator channel off: record, FSTAT, FLT_N and dependants; channel 2, or the third latch of one channel within 10 s, is
fatal (R255, R258, R263, R266, R274). The brown-out of channels 0 and 1 is their caller's (R72). -/
def latchRail (x : Nat) (cause : BitVec 4) (rd : ChanReading) (s : State) : State :=
  let r := railOf s x
  let soft := r.st == .softStart
  let times := s.clk.now :: r.latches.filter fun t => decide (s.clk.now < t + sec 10)
  let third := decide (3 ≤ times.length) && x != 3
  let s := modRail x (fun r => { r with st := .latchedOff, pg := false, sync := false, slew := false, dropout := false, cause := cause,
                                        latches := times, latchedAt := s.clk.now, stuck := r.stuck || third, wakeStart := false,
                                        checked := false }) s
  let s := putLastFault x cause rd r.fsw (bit r.sync 0 + bit soft 1 + bit r.dropout 2) s
  let s := seqRecord 0x2 (railStep x) s
  let s := pullFlt (if x = 3 then 0 else 7) s
  let s := if x = 3 then stepDone (answerRail (dropDependants s)) else if x = 2 then shutRail 0 0x7 (shutRail 1 0x7 s) else s
  raise 11 (if x = 2 || third then .fatal else .contained) cause.toNat x s

/-- Ends an eFuse channel in a trip or in damage, with its record, FSTAT and FLT_N (R266, R270 to R272, R274). Damage is held in MRAM. -/
def failFuse (x : Nat) (st : EfuseState) (cause : BitVec 4) (rd : ChanReading) (s : State) : State :=
  let ramp := (fuseOf s x).st == .ramping
  let s := modFuse x (fun f => { f with st := st, pg := false, cause := cause }) s
  let s := putLastFault (4 + x) cause rd 0 (bit ramp 1) s
  let s := pullFlt (x + 1) (seqRecord 0x2 (fuseCode x) s)
  stepDone (answerFuse x (raise 10 .contained cause.toNat (x + 1) s))

/-! The sequence, shedding and restarts (R262, R266, R43) -/

/-- The sequence list in force. -/
def seqList (s : State) : List Nat := (paramIn s.cfg.effective 0x08C0).map (·.toNat)

/-- Starts the channel of a step where it may start (R262, R263). -/
def startStepCode (code : Nat) (s : State) : State :=
  if code = 0x03 then (if (railOf s 3).st == .off then startRail 3 false s else s)
  else if 0x21 ≤ code ∧ code ≤ 0x26 then
    let x := code - 0x21
    if (fuseOf s x).st == .off && mayTurnOn s x then startFuse x s else s
  else s

/-- The steps that a mask of R266 selects and that are on or starting, in reverse list order. -/
def shedOrder (s : State) (mask : Nat) : List Nat :=
  let all := (seqList s).reverse ++ [0x26, 0x25, 0x24, 0x23, 0x22, 0x21, 0x03]
  let pick := all.filter fun c =>
    (c = 0x03 && mask.testBit 0 && (railOf s 3).st != .off && (railOf s 3).st != .latchedOff)
    || (decide (0x21 ≤ c ∧ c ≤ 0x26) && mask.testBit (c - 0x20) && ((fuseOf s (c - 0x21)).isOn || (fuseOf s (c - 0x21)).st == .preCheck))
  pick.eraseDups

/-- Sheds one step of the reaction mask with cause 0x8; it waits for the restart delay of FLT_N (R266). -/
def shedStep (code : Nat) (s : State) : State :=
  let s := if code = 0x03 then answerRail (dropDependants (shutRail 3 0x8 s)) else dropFuse 0x8 (code - 0x21) s
  { s with aux := { s.aux with shed := s.aux.shed.filter (· != code)
                               fltShed := if s.aux.fltShed.contains code then s.aux.fltShed else s.aux.fltShed ++ [code] } }

/-- Sheds the steps of the reaction mask, which pauses the start sequence (R266, Table 11-10). -/
def shedMask (mask : Nat) (s : State) : State :=
  let s := (shedOrder s mask).foldl (fun st c => shedStep c st) s
  { s with aux := { s.aux with seqPaused := s.aux.seqPaused || s.aux.seqRun == .starting } }

/-- The step codes that a command, FLT_N or hold-up may start and stop. -/
def stepCodes : List Nat := [0x03, 0x21, 0x22, 0x23, 0x24, 0x25, 0x26]

/-- Starts the steps of a list one after the other: the next only once no step is still on its way to PG (R44, R262, R266). -/
def startInTurn : List Nat → State → State
  | [], s => s
  | c :: cs, s =>
    if stepCodes.any (stepStarting s) then s
    else startInTurn cs (startStepCode c { s with aux := { s.aux with shed := s.aux.shed.filter (· != c) } })

/-- Shed steps start again in list order, outside hold-up; a dependant whose source has failed is skipped (R44, R263, R266). -/
def startShed (s : State) : State :=
  let order := (seqList s ++ stepCodes).eraseDups.filter s.aux.shed.contains
  if s.sup.holdup then s else startInTurn order s

/-- SEQ_OUT is pulled low and the lead time of an ordered shutdown begins (R264, R265). Of the steps that were to start again, only eFuse channels with
KEEP_STILL still are. -/
def beginShutdown (s : State) : State :=
  let keep := fun (c : Nat) => decide (0x21 ≤ c ∧ c ≤ 0x26) && s.par (0x0848 + 0x10 * (c - 0x21)) == 1
  { s with aux := { s.aux with seqRun := .lead, seqOut := false, leadDue := some (s.clk.now + ms (s.parN 0x08C2)), seqPaused := false, seqWait := false
                               shed := s.aux.shed.filter keep, fltShed := s.aux.fltShed.filter keep } }

/-- What an ordered shutdown turns off, last first: the steps of the list, channel 3 also where it was started outside the list (log entry 174),
channel 1, channel 0, and channel 2, which goes to burst mode (R264). -/
def shutList (s : State) : List Nat := [0x12, 0x10, 0x11, 0x03] ++ seqList s

/-- The regulator channel of a code of the shutdown. -/
def shutRailOf (code : Nat) : Option Nat := if code = 0x03 then some 3 else if 0x10 ≤ code ∧ code ≤ 0x12 then some (code - 0x10) else none

/-- A step that an ordered shutdown still has to turn off: not an eFuse with KEEP_STILL (R264). A latched channel stays latched (R258). -/
def shutTarget (s : State) (code : Nat) : Bool :=
  match shutRailOf code with
  | some x =>
    let st := (railOf s x).st
    st != .off && st != .latchedOff && st != .shuttingDown && st != .burst
  | none =>
    decide (0x21 ≤ code ∧ code ≤ 0x26) && ((fuseOf s (code - 0x21)).isOn || (fuseOf s (code - 0x21)).st == .preCheck)
      && s.par (0x0848 + 0x10 * (code - 0x21)) == 0

/-- Turns one step of an ordered shutdown off, with its record (R264, R267). -/
def shutOne (code : Nat) (s : State) : State :=
  match shutRailOf code with
  | some x => modRail x (fun r => { r with st := .shuttingDown, pg := false, sync := false, slew := false, dropout := false }) (seqRecord 0x3 (railStep x) s)
  | none => modFuse (code - 0x21) (Efuse.off 0) (seqRecord 0x3 code s)

/-- Turns off the last remaining step before position i; one that is still starting completes or fails first. At the end channel 2 goes to burst mode
(R259, R264, Table 11-10). -/
def shutNext : Nat → State → State
  | 0, s => { s with aux := { s.aux with seqRun := .idle, seqPos := 0, seqWait := false } }
  | i + 1, s =>
    let c := (shutList s).getD i 0
    if !shutTarget s c then shutNext i s
    else if stepStarting s c then { s with aux := { s.aux with seqRun := .shutting, seqPos := i + 1, seqWait := true } }
    else if c = 0x12 then shutNext i (modRail 2 (fun r => { r with st := .burst, sync := false, slew := false }) s)
    else
      let s := shutOne c s
      { s with aux := { s.aux with seqRun := .shutting, seqPos := i, seqWait := false, fallAt := s.clk.now } }

/-- An ordered shutdown that waits for the start of a step goes on once that start has completed or failed (Table 11-10). -/
def shutGoesOn (s : State) : State :=
  if s.aux.seqRun == .shutting && s.aux.seqWait && !stepStarting s ((shutList s).getD (s.aux.seqPos - 1) 0) then shutNext s.aux.seqPos s else s

/-- What waits for a start to complete or fail goes on: an ordered shutdown, or the steps that start again in turn (R44, R266, Table 11-10). -/
def goOn (s : State) : State := if s.aux.shed.isEmpty then shutGoesOn s else startShed (shutGoesOn s)

end Sys2Proof.Machine
end

