-- ==== Sys2Proof/Machine/Ring.lean ====
section
/-! DEFINITION. The ring link: judging frames, forwarding, ring time, port states, sharing the line and MSG (10_relide_ring.md). -/

namespace Sys2Proof.Machine

/-! Judging a frame (R233 to R235) -/

/-- The T window of a frame: from 20 ms before to 10 us after the receiver's ring time (R235). -/
def inWindow (s : State) (t : Nat) : Bool := decide (s.clk.ring ≤ t + ms 20 ∧ t ≤ s.clk.ring + us 10)

/-- The rack key is gone: no frame is applied, nor counted as rejected, and the ring costs nothing by it (R357, R358, log entry 200). -/
def keyGone (s : State) : Bool := s.key.life == .returned || s.key.life == .retired

/-- Why a frame may not be applied, as the counter that counts it; 0 for one that did not end with EOF (R235, Table 18-1). COMMAND is
judged by R106 in place of the T window. -/
def whyRejected (s : State) (f : Frame) : Option Nat :=
  if !f.eof then some 0
  else if f.crc != frameCrc f then some 58
  else if f.tag != frameTag (rackKeyOf s) f (frameTime s f) then some 59
  else if alreadySeen s f then some 60
  else if f.ftype = 1 then (if 10000 * commandPeriod s f < s.clk.ring + 1000 then some 60 else none)
  else if inWindow s (frameTime s f) then none
  else some 60

/-! A port that goes DOWN (R246, R247) -/

/-- The hop of a port, named by the shelf whose LKB end it is (Table 14-8 DOWN); 0 is the hop from shelf N to shelf 1, which shelf 1 cannot number
before it has heard of shelf N (R22). -/
def hopOf (s : State) (p : Port) : Nat :=
  match p with
  | .lkb => position s
  | .lka => position s - 1

/-- The hop that the Wellhead reports: the one that shelf 1 names 0 is that of shelf N (Table 14-8 DOWN). -/
def hopNo (s : State) (hop : Nat) : Nat := if hop = 0 then shelfCount s else hop

/-- A link report: the Wellhead notes it, a member sends it by MSG (R247). -/
def reportLink (hop : Nat) (isDown : Bool) (s : State) : State :=
  if s.rack.wellhead then
    { s with ring := { s.ring with linkDown := if isDown then (hop :: s.ring.linkDown).eraseDups else s.ring.linkDown.filter (hopNo s · != hopNo s hop) } }
  else if s.rack.leader != 0 then sendMsg s.rack.leader 0x03 (Config.encodeLink hop isDown) s
  else s

/-- The port followed: the one with the lower distance, LKA when they are equal (R244). -/
def chooseSource (s : State) : State := { s with ring := { s.ring with source := wellheadPort s } }

/-- A port as it goes DOWN: what it was sending is lost. -/
def PortS.goDown (q : PortS) : PortS :=
  { q with state := .down, exchanges := 0, missed := 0, dist := 0xFF, busy := none, left := 0, txUntil := 0, heardUntil := 0, hears := [], gapUntil := 0, burstAt := none, heardAt := none, waiting := [], suspended := [], window := false,
           imageQ := [] }

/-- While RING is severe a port that goes DOWN is held for 10 s before it trains again (Table 12-5). -/
def holdPort (p : Port) (s : State) : State :=
  if (sourceRec s 18).severe then modPort p (fun q => { q with heldDown := s.clk.now + sec 10 }) s else s

/-- A port goes DOWN, from UP or from TRAINING, with its event record and link report (R246, R247). -/
def portDown (p : Port) (s : State) : State :=
  let was := (portOf s p).state
  if was == .down then s
  else
    reportLink (hopOf s p) true (holdPort p (raise 18 .contained 0x11 0 (count 63 (chooseSource (modPort p PortS.goDown s)))))

/-- A rejected frame is counted and raises RING; where it makes the source severe its port goes DOWN and is held (R235, R289, Tables 12-3 and
12-5). -/
def rejectFrame (p : Port) (c : Nat) (s : State) : State :=
  let was := (sourceRec s 18).severe
  let s := { s with ring := { s.ring with rejected := s.ring.rejected + 1 } }
  let s := raise 18 .contained c 0 (if c = 0 then s else count c s)
  if !was && (sourceRec s 18).severe then portDown p s else s

/-- A shelf position that has been heard: N is at least that (R20). -/
def noteShelf (h : Nat) (s : State) : State :=
  if shelfCount s < h ∧ h ≤ 32 then { s with rack := { s.rack with shelves := h } } else s

/-- A node that forwards a sound frame has heard of its origin's position (R20). -/
def noteOrigin (f : Frame) (s : State) : State := if f.eof && f.crc == frameCrc f then noteShelf f.src.toNat s else s

/-- A frame is accepted: it is remembered for 20 ms and counted (R235, counters 44 to 50). -/
def acceptFrame (f : Frame) (s : State) : State := noteShelf f.src.toNat (count (43 + f.ftype.toNat) (remember f s))

/-- The node takes part in the ring: it runs, and its control die is not in a brown-out (R75). -/
def onRing (s : State) : Bool := s.clk.pstate == .run && s.clk.inReset != some .brownOut && s.clk.inReset != some .powerOn

/-- The links train and exchange SYNC: in Run, and in Watch on the way to Run (R56, R246; log entry 27), not in a brown-out (R75). -/
def onLink (s : State) : Bool := (s.clk.pstate == .run || s.clk.pstate == .watch) && s.clk.inReset != some .brownOut

/-- The loop processor applies frames: not in a reset, and COMMAND not in a freeze (R72, R100). -/
def appliesFrames (s : State) (f : Frame) : Bool := s.clk.inReset.isNone && !(f.ftype == 1 && s.lad.freezeAt.isSome)

/-- When a reception is over: the burst under way, and for each 32 code groups that follow the gap before them (R238). -/
def PortS.heardWhole (q : PortS) : Nat :=
  match q.hears.head? with
  | some h => q.heardUntil + groupNs h.1 + 125 * ((h.1 + 31) / 32)
  | none => q.heardUntil

/-- A frame has arrived whole on a port: the other end releases the line (R229). A MSG or IMAGE has come in its bursts (R238). -/
def endReceipt (p : Port) (f : Frame) (s : State) : State :=
  let q := portOf s p
  let s := advanceTo (if suspendable f then q.heardWhole else q.heardUntil) s
  modPort p (fun q => { q with heardUntil := s.clk.now, hears := if suspendable f then q.hears.drop 1 else q.hears }) s

/-- A COMMAND that a port has received closes its command window, whether or not it is applied (R236). -/
def hearCommand (p : Port) (f : Frame) (s : State) : State := if f.ftype = 1 then modPort p (fun q => { q with window := false }) s else s

/-- Takes a frame that has arrived on a port for application: judged, then accepted and applied, or rejected. -/
def takeFrame (p : Port) (f : Frame) (apply : State → State) (s : State) : State :=
  if !onRing s || (portOf s p).state != .up then s
  else
    let s := hearCommand p f (endReceipt p f s)
    if keyGone s || !appliesFrames s f then s
    else match whyRejected s f with
      | some c => rejectFrame p c s
      | none => apply (acceptFrame f s)

/-! Forwarding (R239 to R241) -/

/-- The frame with HOPS and TURNED changed and the received CRC corrected for exactly that (R233). -/
def rehop (f : Frame) (turned : Bool) : Frame :=
  let g := { f with hops := f.hops + 1, turned := turned }
  { g with crc := f.crc ^^^ frameCrc f ^^^ frameCrc g }

/-- A frame that is flooded: COMMAND, SNAP, MSG to every member, and SLEEP of the Wellhead (Table 10-4). -/
def isFlooded (f : Frame) : Bool :=
  f.ftype == 1 || f.ftype == 6 || (f.ftype == 4 && f.body.headD 0 == 0xFF) || (f.ftype == 7 && f.body.getD 17 0 == 0)

/-- A routed frame has reached its end: its destination, or the Wellhead (R241). -/
def reachedEnd (s : State) (f : Frame) : Bool :=
  if f.ftype = 4 then f.body.headD 0 == BitVec.ofNat 8 (position s) else s.rack.wellhead

/-- A port is receiving: the other end of its hop drives the line (R229, R240). -/
def receiving (s : State) (p : Port) : Bool := decide (s.clk.now < (portOf s p).heardUntil)

/-- A flooded frame goes out of the other port, unless R240 bars it; a duplicate, and a frame whose CRC fails, end with EOA (R233, R240). -/
def forwardFlooded (p : Port) (f : Frame) (s : State) : State :=
  let o := otherPort p
  if (portOf s o).state != .up || receiving s o || 31 ≤ f.hops.toNat || (f.ftype == 1 && ((portOf s o).sentCmd || (portOf s p).sentCmd)) then s
  else
    let good := f.eof && f.crc == frameCrc f && (f.ftype == 1 || !alreadySeen s f)
    sendFrame o { rehop f f.turned with eof := good } (histFree 1 s)

/-- A routed frame goes on, or back with TURNED set when the way is down; a turned one that meets a second down port is discarded, and
one whose HOPS reaches 62 (R241). -/
def forwardRouted (p : Port) (f : Frame) (s : State) : State :=
  let o := otherPort p
  let good := f.eof && f.crc == frameCrc f
  if reachedEnd s f || 62 ≤ f.hops.toNat + 1 then s
  else if (portOf s o).state = .up then sendFrame o { rehop f f.turned with eof := good } (histFree 1 s)
  else if f.turned || (portOf s p).state != .up then s
  else sendFrame p { rehop f true with eof := good } (histFree 1 s)

/-- A frame begins to arrive on a port, whose line the other end drives until its end (R229), MSG and IMAGE in bursts of at most 32 code groups;
at most two receptions are suspended at one port (R238). -/
def hearFrame (p : Port) (f : Frame) (s : State) : State :=
  let n := burstOf s f (frameGroups f) s.clk.ring
  let u := s.clk.now + groupNs n
  modPort p (fun q => { q with heardUntil := u, hears := if suspendable f then ((frameGroups f - n, u) :: q.hears).take 3 else q.hears }) s

/-- A node forwards what is not one-hop, and hears SYNC and IMAGE out; a reserved TYPE is discarded (R232, R239). -/
def forwardFrame (p : Port) (f : Frame) (s : State) : State :=
  if !onRing s || f.ftype = 0 || 7 < f.ftype.toNat then s
  else if f.ftype = 2 || f.ftype = 5 then hearFrame p f s
  else if isFlooded f then forwardFlooded p f (hearFrame p f (noteOrigin f s))
  else forwardRouted p f (hearFrame p f (noteOrigin f s))

/-- FRAME_FORWARD (R233, R239 to R241). -/
def execFrameForward (port : Port) (frame : Frame) (s : State) : Out := .next (forwardFrame port frame s)

/-! Sharing the line (R236 to R239) -/

/-- The other end suspends the MSG or IMAGE that it is sending: what has not arrived of it follows later (R236, R238). -/
def PortS.cutHeard (now : Nat) (q : PortS) : PortS :=
  match q.hears with
  | h :: hs => if now < q.heardUntil then { q with hears := (h.1 + (q.heardUntil - now) * 2 / 125, now) :: hs, heardUntil := now } else q
  | [] => q

/-- What a port does as its command window opens: MSG and IMAGE in progress on it are suspended at either end, any other frame has ended (R236,
R238). -/
def PortS.openWindow (now : Nat) (q : PortS) : PortS := { (q.suspendBusy now).cutHeard now with window := true, sentCmd := false, gapUntil := 0 }

/-- The command window opens on every port at T(p) - 8.05 us (R236). -/
def openWindows (s : State) : State :=
  let s := advanceRing (instantFrom 10000 1950 s.clk.ring) s
  { s with ring := { s.ring with lka := s.ring.lka.openWindow s.clk.now, lkb := s.ring.lkb.openWindow s.clk.now } }

/-- COMMAND_WINDOW_OPEN (R236, R238). -/
def execCommandWindowOpen (s : State) : Out := .next (if onRing s ∧ s.clk.ringKnown = true then openWindows s else s)

/-- A frame is an own routed one that has not left yet. -/
def ownRouted (s : State) (f : Frame) : Bool := f.src == BitVec.ofNat 8 (position s) && f.hops == 0 && !isFlooded f

/-- A frame is an own flooded one of which no copy has left yet on the other port (R240). -/
def ownFlooded (s : State) (p : Port) (f : Frame) : Bool :=
  f.src == BitVec.ofNat 8 (position s) && f.hops == 0 && isFlooded f && !(portOf s (otherPort p)).sent.contains f

/-- A waiting frame leaves: a frame of this SZ716 takes the ring time at which its SOF leaves (Table 10-3, R234), and so does the copy of a flooded
one that still waits on the other port; one whose other copy has left keeps the TTX under which the two are one frame (R240; log entry 139), and
a frame of another SZ716 is not changed. -/
def sendWaiting (p : Port) (f : Frame) (s : State) : State :=
  let s := modPort p (fun q => { q with waiting := q.waiting.erase f }) s
  let y := f.ftype.toNat
  let t := startAt p y s
  let g := ownFrame s y t f.body
  if ownRouted s f then startFrame p g (noteT y t s)
  else if ownFlooded s p f then
    startFrame p g (remember g (noteT y t (modPort (otherPort p) (fun q => { q with waiting := q.waiting.map fun w => if w == f then g else w }) s)))
  else startFrame p f s

/-- The frame suspended last goes on with RES (R238). -/
def resumeFrame (p : Port) (g : Frame × Nat × Nat) (s : State) : State :=
  modPort p (fun q => { q with suspended := q.suspended.drop 1 }) (burst p g.1 g.2.2 (lineAt p s) s)

/-- The reception suspended last goes on with its next burst, 125 ns after the line fell free (R229, R238); one of which nothing follows is over. -/
def hearMore (p : Port) (s : State) : State :=
  modPort p (fun q => match q.hears.filter fun h => decide (0 < h.1) with
    | h :: hs =>
      let n := min h.1 32
      let u := max q.heardUntil s.clk.now + 125 + groupNs n
      { q with hears := (h.1 - n, u) :: hs, heardUntil := u }
    | [] => { q with hears := [] }) s

/-- The next frame goes out on a free line: of the waiting ones that fit before the next window or SYNC slot the one of the highest
priority, or the frame suspended last where that one's priority is not lower; in the gap of the other end only a frame of priority 2 to 4. Where this end
has nothing to send, a MSG or IMAGE that the other end has suspended goes on (R238, R239; log entry 191). -/
def nextFrameOut (p : Port) (s : State) : State :=
  let q := portOf s p
  let gap := q.inGap s.clk.now
  match q.waiting.find? (fun f => fitsLine s p f && (!gap || decide (f.ftype.toNat ≤ 4))), q.suspended.head?.filter fun g => !gap && fitsLine s p g.1 with
  | none, none => hearMore p s
  | some f, none => sendWaiting p f s
  | none, some g => resumeFrame p g s
  | some f, some g => if f.ftype.toNat < g.1.ftype.toNat then sendWaiting p f s else resumeFrame p g s

/-- The line of a port falls free: the own burst, what the other end sends, or the own gap has ended. -/
def lineEnds (p : Port) (s : State) : State :=
  let q := portOf s p
  advanceTo (if q.busy.isSome then q.txUntil else max q.heardUntil q.gapUntil) s

/-- The command window closes: 125 ns after the COMMAND that the port sent, or with none at T(p) - 1.25 us (R236). -/
def closeWindow (p : Port) (s : State) : State :=
  let q := portOf s p
  if !q.window then s
  else modPort p (fun q => { q with window := false }) (if q.sentCmd then advanceTo (s.clk.now + 125) s else advanceRing (instantFrom 10000 8750 s.clk.ring) s)

/-- A burst of 32 code groups has ended with code groups of its MSG or IMAGE to go, and the next window or slot is not yet near: the port leaves a
gap (R238). -/
def gapDue (p : Port) (s : State) : Bool :=
  let q := portOf s p
  !q.window && q.busy.any fun f => decide (0 < q.left) && fitsLine s p f

/-- A transmission ends on a port (R236, R239): a MSG or IMAGE of which code groups are left is suspended here, with a gap of 2 code groups after 32 of
them (R238), and the next frame goes out. -/
def freeLine (p : Port) (s : State) : State :=
  let s := closeWindow p (lineEnds p s)
  if gapDue p s then modPort p (fun q => { q with gapUntil := s.clk.now + 125 }) (suspendBusy p s)
  else nextFrameOut p (suspendBusy p s)

/-- PORT_LINE_FREE (R236, R239). -/
def execPortLineFree (port : Port) (s : State) : Out :=
  .next (if onRing s ∧ (portOf s port).state = .up then freeLine port s else s)

/-- The receiver discards a suspended frame that has not resumed within 100 us (R238, log entry 18). -/
def dropSuspended (p : Port) (s : State) : State :=
  match (portOf s p).hears.getLast? with
  | some h => if h.1 = 0 then s else modPort p (fun q => { q with hears := q.hears.dropLast }) (advanceTo (h.2 + us 100) s)
  | none => s

/-- SUSPEND_TIMEOUT (R238). -/
def execSuspendTimeout (port : Port) (s : State) : Out := .next (dropSuspended port s)

/-! SYNC and ring time (R237, R243 to R245) -/

/-- The highest ring time this node knows of (R245). -/
def highTime (s : State) : Nat := max s.clk.ring s.clk.high

/-- D_RX: T_TX less the receipt of the last SYNC on this hop, LSB 1/256 ns; 0xFFFFFFFF when there is none within range (Table 10-7). -/
def delayField (s : State) (p : Port) : Nat :=
  match (portOf s p).lastRx with
  | some t => if 256 * (s.clk.ring - t) < 0xFFFFFFFF then 256 * (s.clk.ring - t) else 0xFFFFFFFF
  | none => 0xFFFFFFFF

/-- The SYNC body on a port (Table 10-7); a member that has not taken ring time gives no distance. -/
def syncBody (s : State) (p : Port) : List Byte :=
  let o := otherPort p
  bvBytes 4 (if s.rack.wellhead then s.rack.epoch else s.rack.obeyed) ++ leBytes 8 s.clk.ring ++ [0] ++ leBytes 4 (delayField s p)
  ++ leBytes 8 (highTime s) ++ leBytes 1 (if s.rack.wellhead then 0 else if s.clk.timeState = .none then 255 else distVia (portOf s o))
  ++ leBytes 1 (bit (s.clk.timeState == .holdover) 0 + bit (s.clk.timeState == .lost) 1 + bit (settling s) 2
                + bit ((portOf s o).state != .up) 3) ++ [0]

/-- Sends a SYNC now on a port whose command window has closed; no two SYNC carry one ring time (R234, R236). -/
def emitSync (p : Port) (s : State) : State :=
  let s := modPort p (fun q => { q with window := false }) (advanceRing (freshT 2 s) s)
  count 52 (sendFrame p (ownFrame s 2 s.clk.ring (syncBody s p)) (noteT 2 s.clk.ring s))

/-- When a port that trains sends next: the LKB end 100 us after it last sent, the LKA end 50 us after each burst or SYNC that it has heard and not yet
answered (R246, Table 10-8). -/
def burstDue (p : Port) (q : PortS) : Option Nat :=
  match p with
  | .lkb => some ((q.burstAt.map (· + us 100)).getD 0)
  | .lka => q.heardAt.bind fun h => if q.burstAt.all fun b => decide (b < h + us 50) then some (h + us 50) else none

/-- The port notes that it has sent a burst now. -/
def noteBurst (p : Port) (s : State) : State := modPort p (fun q => { q with burstAt := some s.clk.now }) s

/-- A port sends SYNC in its slot at T(p) - 1.0 us: LKA in periods with p mod 10 = 0, LKB with p mod 10 = 5 (R237); in TRAINING on the
burst schedule (R246). A port that is DOWN sends none, and after a rack wake a Wellhead sends none before its first SYNC (R62). The command window has
closed by then (R236, R237), and no two SYNC carry one ring time (R234). -/
def sendSync (p : Port) (s : State) : State :=
  let q := portOf s p
  if !onLink s || q.state == .down || (q.state == .up && s.rack.wellhead && s.clk.firstSyncDue) then s
  else if q.state = .training then
    match burstDue p q with
    | some t => noteBurst p (emitSync p (advanceTo t s))
    | none => s
  else emitSync p (if s.clk.ringKnown then advanceRing (instantFrom 100000 (if p = .lka then 99000 else 49000) (s.clk.ring + 1)) s else s)

/-- SYNC_SEND (R237, R243). -/
def execSyncSend (port : Port) (s : State) : Out := .next (sendSync port s)

/-- A SYNC whose tag is not checked: one with SRC 0 (R235), and any where the rack key is gone, which then upholds the link alone (R358, log entry
200). -/
def unsealed (s : State) (f : Frame) : Bool := f.src == 0 || keyGone s

/-- Why a SYNC may not be taken: one with SRC 0 is not checked for its tag, and before ring time has been acquired, or acquired anew after a
rack wake (R62), only T_TX must rise (R235). -/
def syncRejected (s : State) (p : Port) (f : Frame) : Option Nat :=
  if !f.eof then some 0
  else if f.crc != frameCrc f then some 58
  else if unsealed s f then none
  else if f.tag != frameTag (rackKeyOf s) f (frameTime s f) then some 59
  else if s.clk.ringKnown && !s.clk.firstSyncDue then
    (if alreadySeen s f || !inWindow s (frameTime s f) then some 60 else none)
  else if (portOf s p).lastTTx.all fun t => decide (t < frameTime s f) then none
  else some 60

/-- The link delay after an answer, filtered with a 1 s time constant, LSB 1/256 ns (R244). -/
def newDelay (s : State) (q : PortS) (dRx : Nat) : Rat :=
  match q.lastTx with
  | some t1 =>
    if dRx = 0xFFFFFFFF then q.delay
    else
      let d : Rat := ((256 * ((s.clk.ring : Int) - (t1 : Int)) - (dRx : Int) : Int) : Rat) / 2
      match q.delayAt with
      | some t => q.delay + (d - q.delay) * (1 - expNeg (((s.clk.now - t : Nat) : Rat) / 1000000000))
      | none => d
  | none => q.delay

/-- One valid exchange of a port: four in a row bring it from TRAINING to UP (R246). -/
def PortS.exchange (q : PortS) : PortS :=
  if q.state = .training then
    (if 3 ≤ q.exchanges then { q with state := .up, exchanges := 0, missed := 0 } else { q with exchanges := q.exchanges + 1, missed := 0 })
  else { q with missed := 0 }

/-- The port as a SYNC leaves it: distance, delay and times; one with SRC 0 gives no distance (R235, R244). -/
def PortS.takeSync (s : State) (f : Frame) (q : PortS) : PortS :=
  let d := newDelay s q (fieldAt f.body 13 4)
  { q.exchange with heardAt := some s.clk.now, dist := if unsealed s f then 0xFF else f.body.getD 25 0xFF, delay := d, delayAt := some s.clk.now, lastRx := some s.clk.ring,
                    lastTTx := if unsealed s f then q.lastTTx else some (frameTime s f) }

/-- Ring time steps to t: the times of SYNC noted before belong to the old count (R244), and so do those of the last conversions (R129). A step
forward of a ring time that is held moves OPSEC with it (R345). -/
def stepRing (t : Nat) (s : State) : State :=
  let q := fun (q : PortS) => { q with lastTx := none, lastRx := none }
  if t = s.clk.ring then s
  else
    let s := if opsecByRing s then countSeconds (t - s.clk.ring) s else s
    { s with clk := { s.clk with ring := t }, ring := { s.ring with lka := q s.ring.lka, lkb := q s.ring.lkb }
             meas := { s.meas with marks := s.meas.marks.map fun m => m.map fun p => (0, p.2) } }

/-- Ring time is taken from a SYNC on the port followed: acquired where none is held, only forward after a rack wake (R62, Table 3-9), otherwise its error is measured and
removed under R67 (R244). The error trims the PLL; by how much within the 200 ppm of Table 3-4 is not stated (log entry 2). -/
def followTime (p : Port) (f : Frame) (s : State) : State :=
  let there : Nat := frameTime s f + (portOf s p).delay.floor.toNat / 256
  let err : Int := 256 * ((s.clk.ring : Int) - (frameTime s f : Int)) - (f.body.getD 12 0).toNat - (portOf s p).delay.floor
  let was := s.clk.timeState
  let s := { s with clk := { s.clk with lastSync := s.clk.now, timeState := .synced } }
  if !s.clk.ringKnown || was == .none then
    let t := if s.clk.firstSyncDue then max s.clk.ring there else there
    let step := s.clk.firstSyncDue
    let s := stepRing t s
    let s := { s with clk := { s.clk with ringKnown := true, phaseErr := 0, slewAt := s.clk.now, firstSyncDue := false } }
    if step then timeMark s else s
  else
    let n := takeFree s
    { n.2 with clk := { n.2.clk with phaseErr := err, slewAt := s.clk.now, pllTrim := max (-200000) (min 200000 (Config.freeRat n.1).floor) } }

/-- A SYNC that may be taken (R235, R244 to R246): its epoch counts among those seen (R217), and ring time is taken only from the newest epoch seen
(R221) and only where the port leads to a master. -/
def applySync (p : Port) (f : Frame) (s : State) : State :=
  let was := (portOf s p).state
  let s := modPort p (PortS.takeSync s f) (if unsealed s f then s else acceptFrame f s)
  let epoch := BitVec.ofNat 32 (fieldAt f.body 0 4)
  let s := if unsealed s f then s
    else { s with clk := { s.clk with high := max s.clk.high (fieldAt f.body 17 8) }
                  rack := { s.rack with highEpoch := if newer epoch s.rack.highEpoch then epoch else s.rack.highEpoch } }
  let s := chooseSource s
  let newest := !unsealed s f && !newer s.rack.highEpoch epoch && distVia (portOf s p) < 0xFF
  let s := if s.rack.wellhead || !newest || s.ring.source != p || (s.clk.firstSyncDue && was != .up) then s else followTime p f s
  let s := if was == .training && (portOf s p).state == .up then reportLink (hopOf s p) false (plainEvent18 s) else s
  { s with clk := { s.clk with trained := s.clk.trained || (s.clk.ringKnown && (s.ring.lka.state == .up || s.ring.lkb.state == .up)) } }
where
  /-- The event record of a port that has come UP (R247). -/
  plainEvent18 (s : State) : State := eventRecord 18 0x10 0 0 false s

/-- A SYNC arrives at a port in TRAINING or UP. -/
def takeSync (p : Port) (f : Frame) (s : State) : State :=
  if !onLink s || (portOf s p).state == .down then s
  else
    let s := endReceipt p f s
    match syncRejected s p f with
    | some c => rejectFrame p c (modPort p (fun q => { q with exchanges := 0, missed := q.missed + 1 }) s)
    | none => applySync p f s

/-- SYNC_RECEIVED (R232, R235, R244, R246). -/
def execSyncReceived (port : Port) (frame : Frame) (s : State) : Out := .next (if frame.ftype = 2 then takeSync port frame s else s)

/-! Port states (R246, R247) -/

/-- A port in DOWN sends a burst on its schedule; a burst heard without a code error brings it to TRAINING, unless it is held DOWN (R246, Table 12-5). -/
def trainPort (p : Port) (heard : Bool) (s : State) : State :=
  let q := portOf s p
  if !onLink s || q.state != .down then s
  else if heard then
    modPort p (fun q => { q with heardAt := some s.clk.now,
                                 state := if s.clk.now < q.heldDown then .down else .training, exchanges := 0, missed := 0 }) s
  else match burstDue p q with
    | some t => noteBurst p (advanceTo t s)
    | none => s

/-- TRAINING_BURST (R246). -/
def execTrainingBurst (port : Port) (heard : Bool) (s : State) : Out := .next (trainPort port heard s)

/-- PORT_DOWN (R246, R247). -/
def execPortDown (port : Port) (s : State) : Out := .next (if onLink s then portDown port s else s)

end Sys2Proof.Machine
end

