-- ==== Sys2Proof/Machine/RackConfig.lean ====
section
/-! DEFINITION. Rack-wide configuration: staging, acknowledgement, the commit order and its application (R222 to R224, Table 9-9). -/

namespace Sys2Proof.Machine

/-- Messages of channel 0x02 by number: 0 staged values, 1 acknowledgement, 2 order, 3 abort (R224; their layout is log entry 9). -/
def rackMsg (kind : Nat) (nums : List Nat) (data : List Byte) : List Byte := (Config.encodeRack kind nums data).take 504

/-- Sends a rack configuration message to every other position of the ring. -/
def sendOthers (data : List Byte) (s : State) : State :=
  (((List.range (shelfCount s)).map (· + 1)).filter (· != position s)).foldl (fun st h => sendMsg h 0x02 data st) s

/-- The pending set and the order as a journal group carries them. -/
def pendingItems (s : State) : JItems :=
  { JItems.reset with pending := some (s.cfg.pending, s.cfg.pendingAt), order := some (s.cfg.order.getD (0, 0)) }

/-- The pending set is discarded, in the journal too where a commit may begin (R224). -/
def discardPending (s : State) : State :=
  if !s.cfg.hasPending then s
  else
    let s := { s with cfg := { s.cfg with pending := [], hasPending := false, order := none } }
    commitItems 0x5 (pendingItems s) s

/-- A shelf validates the staged values and journals them as pending: the status it acknowledges with, and the digest of the rack-wide
values with them (R224). Values whose order has come are not replaced; a commit that may not begin now is refused as R42 and R286 say. -/
def stagePending (records : List Byte) (s : State) : Byte × List Byte × State :=
  let r := stageRecords s.cfg.params (fittedNow s) (filesNow s) true 128 61 records [] 0
  let digest := digestOf (overlay s.cfg.params r.1)
  let len := itemBytes s { JItems.reset with pending := some (r.1, 0), order := some (0, 0) }
  if r.2.2.isSome then (0x11, digest, s)
  else if s.cfg.order.isSome then (0x02, digest, s)
  else if !canWrite s then ((nvRefusal s).getD 0x30, digest, journalRefused (count 73 s))
  else if !hasRoom s len then (0x02, digest, journalRefused s)
  else
    let s := { s with cfg := { s.cfg with pending := r.1, hasPending := true, pendingAt := s.clk.now, order := none } }
    (0x00, digest, journalCommit 0x5 (pendingItems s) s)

/-! At the Wellhead -/

/-- The stage ends: abort is sent, the pending values are discarded, and the stage is answered (Table 9-9). -/
def abortStage (status : Byte) (shelf : Nat) (s : State) : State :=
  let s := sendOthers (rackMsg 3 [] []) s
  let s := finishOpt s.rack.stageReq status (leBytes 2 0 ++ leBytes 1 shelf) s
  discardPending { s with rack := { s.rack with staging := false, staged := false, stage := [], stageReq := none } }

/-- The shelves whose acknowledgement is still missing. -/
def missingAcks (s : State) : List Nat :=
  ((List.range (shelfCount s)).map (· + 1)).filter fun h => h != position s && (row s h).ackDigest.isNone

/-- The stage is complete once every shelf has acknowledged the staged digest. -/
def completeStage (s : State) : State :=
  if !s.rack.staging || !(missingAcks s).isEmpty then s
  else
    let s := finishOpt s.rack.stageReq 0x00 (digestOf (overlay s.cfg.params s.rack.stage)) s
    { s with rack := { s.rack with staging := false, staged := true, stageReq := none } }

/-- An acknowledgement arrives at the Wellhead: a refusal, or another digest, ends the stage with that shelf's number (R224); one for a stage that gave
way says nothing of the stage that is kept (R24). -/
def takeStageAck (src : Nat) (status : Nat) (digest : List Byte) (s : State) : State :=
  if !s.rack.wellhead || !s.rack.staging then s
  else if status = 0 ∧ digest ≠ digestOf (overlay s.cfg.params s.rack.stage) ∧ s.rack.gaveWay.contains (BitVec.ofNat 64 (leNat digest)) then s
  else if status = 0 ∧ digest = digestOf (overlay s.cfg.params s.rack.stage) then
    completeStage (modRow src (fun r => { r with ackDigest := some (BitVec.ofNat 64 (leNat digest)) }) s)
  else abortStage (if status = 0x11 ∨ status = 0 then 0x11 else 0x02) src s

/-- The ring time that the first stage frame of a request carries: TTX of the frame by which the request came, or the own ring time for a request
that came by no frame (R24). -/
def requestTime (req : Req) (s : State) : Nat :=
  if req.mb = .ring then (getKey req.tag.toNat s.host.ringTimes).getD s.clk.ring else s.clk.ring

/-- The change whose first stage frame carries the later ring time gives way: the stage that runs is answered BUSY, and so is a
commit of one that has been answered OK (R24). -/
def supersede (s : State) : State :=
  let s := finishOpt s.rack.stageReq 0x02 (leBytes 2 0 ++ leBytes 1 0) s
  let old := if s.rack.staging || s.rack.staged then [BitVec.ofNat 64 (leNat (digestOf (overlay s.cfg.params s.rack.stage)))] else []
  { s with rack := { s.rack with staging := false, staged := false, stage := [], stageReq := none, gaveWay := (old ++ s.rack.gaveWay).take 8 } }

/-- A stage is pending whose first frame is not later than a ring time, or whose order has gone out (R24). -/
def stageBars (t : Nat) (s : State) : Bool :=
  s.cfg.order.isSome || s.rack.commitReq.isSome || ((s.rack.staging || s.rack.staged) && decide (s.rack.stageRing ≤ t))

/-- The Wellhead stages checked records for itself and relays them (R224). -/
def startStage (req : Req) (records : List Byte) (st : List ParamRec) (t : Nat) (s : State) : State :=
  let p := stagePending records (supersede s)
  if p.1 ≠ 0 then answer req 0x0706 p.1 [] p.2.2
  else
    let s := accept req 0x0706 0x01 [] p.2.2
    let clear := fun (r : ShelfRow) => { r with ackDigest := none }
    let s := { s with rack := { s.rack with stage := st, staging := true, stageAt := s.clk.now, stageRing := t, stageReq := some req,
                                            rows := s.rack.rows.map clear } }
    completeStage (sendOthers (rackMsg 0 [] records) s)

/-- RACK_STAGE as a state change: every record is checked before it is relayed; of two changes the one whose first stage frame carries the earlier
ring time is kept, and the other is answered BUSY (R24, R224). -/
def rackStageOp (req : Req) (records : List Byte) (s : State) : State :=
  runChecked req 0x0706 ⟨.service, true, true, false⟩ (decide (5 ≤ records.length ∧ records.length ≤ 244)) true (fun s =>
    let r := stageRecords s.cfg.params (fittedNow s) (filesNow s) true 128 61 records [] 0
    let t := requestTime req s
    if stageBars t s then answer req 0x0706 0x02 [] s
    else if r.2.2.isSome then answer req 0x0706 0x11 (leBytes 2 (r.2.1 + 1) ++ [0]) s
    else startStage req records r.1 t s) s

/-- RACK_STAGE (R224). -/
def execRackStage (req : Req) (records : List Byte) (s : State) : Out := .next (rackStageOp req records s)

/-- RACK_STAGE_TIMEOUT: 50 ms after the stage an acknowledgement is missing (Table 9-9). -/
def stageTimeout (s : State) : State :=
  if !s.rack.staging then s
  else
    let s := advanceTo (s.rack.stageAt + ms 50) s
    abortStage 0x02 ((missingAcks s).headD 0) s

/-- RACK_STAGE_TIMEOUT (R224). -/
def execRackStageTimeout (s : State) : Out := .next (stageTimeout s)

/-! The order (R222, R224) -/

/-- A shelf takes the order where values are pending, and keeps it in the journal where a commit may begin. -/
def takeOrder (gen : BitVec 32) (tc : Nat) (s : State) : State :=
  if !s.cfg.hasPending then s
  else
    let s := { s with cfg := { s.cfg with order := some (gen, tc) } }
    commitItems 0x5 (pendingItems s) s

/-- RACK_ORDER_RECEIVED (R224). -/
def execRackOrderReceived (gen : BitVec 32) (tc : Nat) (s : State) : Out := .next (takeOrder gen tc s)

/-- The newest generation that any shelf has reported, the Wellhead's own among them (R222). -/
def newestGen (s : State) : BitVec 32 :=
  s.rack.rows.foldl (fun g r => if r.seen.isSome && newer r.gen g then r.gen else g) s.cfg.gen

/-- RACK_COMMIT as a state change: the order names G and T(c), the first frame boundary at least 5 ms later (R222, R224). -/
def rackCommitOp (req : Req) (digest : BitVec 64) (s : State) : State :=
  runCommand req 0x0707 ⟨.service, true, true, false⟩ (fun s =>
    if digest.toNat ≠ leNat (digestOf (overlay s.cfg.params s.rack.stage)) ∧ s.rack.gaveWay.contains digest then answer req 0x0707 0x02 [] s
    else if s.rack.staged = false ∨ bvBytes 8 digest ≠ digestOf (overlay s.cfg.params s.rack.stage) then answer req 0x0707 0x12 [] s
    else
      let g := newestGen s + 1
      let tc := instantFrom (10000 * max 1 s.mod.frameLen) 0 (s.clk.ring + ms 5)
      let s := accept req 0x0707 0x01 [] s
      let s := sendOthers (rackMsg 2 [g.toNat, tc] []) { s with rack := { s.rack with staged := false, stage := [], commitReq := some req } }
      takeOrder g tc s) s

/-- RACK_COMMIT (R224). -/
def execRackCommit (req : Req) (digest : BitVec 64) (s : State) : Out := .next (rackCommitOp req digest s)

/-- What the commit of the pending values writes. -/
def committedItems (s : State) : JItems :=
  { JItems.reset with params := some (overlay s.cfg.params s.cfg.pending), pending := some ([], s.cfg.pendingAt), order := some (0, 0) }

/-- The pending values become committed in one journal commit with generation G, the rack commit mark, and take effect at the frame boundary (R224); a new
R(path) setting is a new start of its trim (R205). The Wellhead then waits for page-0 STATUS, and so does a member that may take the role before
(Table 9-10); one that was the Wellhead of the order answers its request here. -/
def commitPending (g : BitVec 32) (tc : Nat) (s : State) : State :=
  let set := overlay s.cfg.params s.cfg.pending
  let path := s.cfg.pending.any (·.id == 0x0702)
  let s := { s with cfg := { s.cfg with params := set, gen := g, pending := [], hasPending := false, order := none } }
  let s := journalCommit 0x6 { pendingItems s with params := some set } s
  let s := takeWhere rackWide s
  let s := if path then { s with rack := { s.rack with rpath := (s.parN 0x0702 : Rat) / 1000 } } else s
  let s := { s with rack := { s.rack with confirm := some (g, tc), rd := none } }
  if s.rack.wellhead then s
  else
    let s := finishOpt s.rack.commitReq 0x00 (bvBytes 4 g ++ leBytes 8 tc) s
    { s with rack := { s.rack with commitReq := none } }

/-- RACK_COMMIT_APPLY: at T(c), or at the first frame boundary after a late receipt or a resume (R224). -/
def applyOrder (s : State) : State :=
  match s.cfg.order with
  | none => s
  | some o =>
    if !s.cfg.hasPending then s
    else
      let frame := 10000 * max 1 s.mod.frameLen
      let s := if s.clk.ring ≤ o.2 then advanceRing o.2 s else advanceRing (instantFrom frame 0 s.clk.ring) s
      if mayCommit s (committedItems s) then commitPending o.1 o.2 s else journalRefused (if canWrite s then s else count 73 s)

/-- RACK_COMMIT_APPLY (R224). -/
def execRackCommitApply (s : State) : Out := .next (applyOrder s)

/-- PENDING_DISCARD: pending values with no order 1 s after their staging (R224). -/
def pendingTimeout (s : State) : State :=
  if !s.cfg.hasPending || s.cfg.order.isSome then s
  else
    let s := discardPending (advanceTo (s.cfg.pendingAt + sec 1) s)
    { s with rack := { s.rack with staged := false, stage := if s.rack.staging then s.rack.stage else [] } }

/-- PENDING_DISCARD (R224). -/
def execPendingDiscard (s : State) : Out := .next (pendingTimeout s)

/-! At a member -/

/-- RACK_STAGE_RECEIVED: the relayed values are validated and journalled as pending, and acknowledged with the staged digest (R224). -/
def receiveStage (src : Byte) (records : List Byte) (s : State) : State :=
  if !onRing s then s
  else
    let p := stagePending records s
    sendMsg src.toNat 0x02 (rackMsg 1 [p.1.toNat] p.2.1) p.2.2

/-- RACK_STAGE_RECEIVED (R224). -/
def execRackStageReceived (src : Byte) (records : List Byte) (s : State) : Out := .next (receiveStage src records s)

/-- The messages of channel 0x02 that have no event of their own: acknowledgements at the Wellhead, and the abort at a member. -/
def takeRackMsg (src : Nat) (data : List Byte) (s : State) : State :=
  match Config.decodeRack data with
  | some (1, l, d) => takeStageAck src (l.headD 0) d s
  | some (3, _, _) => discardPending s
  | _ => s

end Sys2Proof.Machine
end

