-- ==== Sys2Proof/Machine/Message.lean ====
section
/-! DEFINITION. The message transport: mailbox entries, delivery by channel, acknowledgement, retries, and RELAY (R248, R249, R306,
R327). -/

namespace Sys2Proof.Machine

/-! Entries (Table 13-8) -/

/-- The 252 bytes that the CRC of an entry covers. -/
def entryHead (op tag flags level : Nat) (payload : List Byte) : List Byte :=
  leBytes 2 op ++ leBytes 1 tag ++ leBytes 1 flags ++ leBytes 2 payload.length ++ leBytes 1 level ++ [0] ++ fitBytes 244 payload

/-- The 256 bytes of an entry. -/
def entryBytes (e : Entry) : List Byte :=
  let h := entryHead e.opcode.toNat e.tag.toNat e.flags.toNat e.level.toNat (e.payload.take 244)
  h ++ bvBytes 4 (crc32c h)

/-- A request entry as a requester forms it. -/
def requestBytes (op : Nat) (tag : Byte) (level : Access) (payload : List Byte) : List Byte :=
  entryBytes ⟨BitVec.ofNat 16 op, tag, 0, BitVec.ofNat 8 (Access.code level), payload⟩

/-- A push of a 256-byte entry onto a request queue (R302, R303): at the window of the host port and of two-wire bus B it is discarded
while READY is 0; the other two take commands while the shelf is not ready (R5), but not in a reset. A full queue sets REQ_OVF. -/
def enqueue (mb : Mailbox) (bs : List Byte) (s : State) : State :=
  if (mb == .host || mb == .twb) && !hostReady s then modMail mb (fun m => { m with winErr := true }) s
  else if s.clk.inReset.isSome then s
  else if (mail s mb).reqQ.length < 8 then modMail mb (fun m => { m with reqQ := m.reqQ ++ [bs] }) s
  else count 69 (modMail mb (fun m => { m with reqOvf := true }) s)

/-! The ring mailbox (R305, R327) -/

/-- The restart that a response announces begins as the response leaves its queue (R332). -/
def notePopped (e : Entry) (s : State) : State :=
  match s.host.restart with
  | some (a, _) =>
    let mine := if a then e.opcode == 0x0B05 else e.opcode == 0x0102
    if mine && e.payload.headD 1 == 0 then { s with host := { s.host with restart := some (a, s.clk.now) } } else s
  | none => s

/-- Sends the responses of the ring mailbox to the senders of their requests (R248): a final one ends the request. -/
def sendResponses : List Entry → State → State
  | [], s => s
  | e :: es, s =>
    let s := notePopped e (match getKey e.tag.toNat s.host.ringFrom with
      | some src => sendMsg src 0x00 (entryBytes e) s
      | none => s)
    let keep := fun (p : Nat × Nat) => !e.flags.getLsbD 6 || p.1 != e.tag.toNat
    sendResponses es { s with host := { s.host with ringFrom := s.host.ringFrom.filter keep, ringTimes := s.host.ringTimes.filter keep } }

/-- The message transport takes the responses of the ring mailbox (R248, R303). -/
def drainRing (s : State) : State :=
  if s.clk.pstate != .run || position s == 0 then s
  else
    let l := (mail s .ring).rspQ
    sendResponses l (modMail .ring (fun m => { m with rspQ := [] }) s)

/-- The inner TAGs of a shelf: eight for each position, so that no two shelves share one at a destination (log entry 19). -/
def innerTag (s : State) (dst : Nat) : Option Byte :=
  ((List.range 8).map fun i => BitVec.ofNat 8 ((position s - 1) * 8 + i)).find? fun t => s.ring.relays.all fun r => !(r.2.1 == dst && r.2.2 == t)

/-! The reports of an image relay (R250, 16_security_lifecycle_update.md) -/

/-- HELD: the shelves that hold the relayed image verified (Table 14-12). -/
def heldMask (s : State) : Nat := maskOf ((List.range 32).map fun i => (row s (i + 1)).held)

/-- An entry of the waiting inner requests that asks for IMAGE_STATUS on behalf of the image relay. -/
def isPoll (s : State) (r : Req × Nat × BitVec 8) : Bool := s.ring.relayReq == some r.1

/-- The image relay ends with HELD. -/
def endImageRelay (s : State) : State :=
  let keep := s.ring.relays.filter fun r => !isPoll s r
  finishOpt s.ring.relayReq 0x00 (leBytes 4 (heldMask s))
    { s with ring := { s.ring with relaying := false, relaySrc := false, relayReq := none, relays := keep } }

/-- Once no report is outstanding the relay ends. -/
def afterReport (s : State) : State := if s.ring.relays.any (isPoll s) then s else endImageRelay s

/-- The source asks a shelf for its IMAGE_STATUS through its ring mailbox. -/
def askStatus (d : Nat) (s : State) : State :=
  match s.ring.relayReq, innerTag s d with
  | some req, some t => sendMsg d 0x00 (requestBytes 0x0B04 t .monitor []) { s with ring := { s.ring with relays := s.ring.relays ++ [(req, d, t)] } }
  | _, _ => s

/-- A report: a shelf that holds the image verified is counted, one that still receives it is asked again. -/
def takeReport (src : Nat) (payload : List Byte) (s : State) : State :=
  let state := fieldAt payload 12 1
  let same := decide (fieldAt payload 6 4 = s.upd.imgInfo.version.toNat)
  let s := if payload.headD 1 = 0 ∧ state = 2 ∧ same = true then modRow src (fun r => { r with held := true }) s else s
  afterReport (if payload.headD 1 = 0 ∧ state = 1 then askStatus src s else s)

/-- A final inner response ends the RELAY that waits for it: the OPCODE and the inner payload (Table 14-8). -/
def endRelay (src : Nat) (bs : List Byte) (s : State) : State :=
  let mine := fun (r : Req × Nat × BitVec 8) => r.2.1 == src && r.2.2 == bs.getD 2 0
  match s.ring.relays.find? mine with
  | none => s
  | some r =>
    let inner := bytesAt bs 8 (min 240 (fieldAt bs 4 2))
    let s := { s with ring := { s.ring with relays := s.ring.relays.filter fun q => !mine q } }
    if isPoll s r then takeReport src inner s else finish r.1 0x00 (bytesAt bs 0 2 ++ inner) s

/-- An entry that arrives on channel 0x00: a request for the ring mailbox, or a response to a RELAY; the relay discards inner responses
that are not final (R327). -/
def takeEntry (src t : Nat) (bs : List Byte) (s : State) : State :=
  let flags := bs.getD 3 0
  if flags.getLsbD 7 then (if flags.getLsbD 6 then endRelay src bs s else s)
  else enqueue .ring bs { s with host := { s.host with ringFrom := putKey (bs.getD 2 0).toNat src s.host.ringFrom,
                                                        ringTimes := putKey (bs.getD 2 0).toNat t s.host.ringTimes } }

/-! Delivery (R249) -/

/-- A link report at the Wellhead (R247). -/
def takeLink (data : List Byte) (s : State) : State :=
  match Config.decodeLink data with
  | some (hop, isDown) => if s.rack.wellhead then reportLink hop isDown s else s
  | none => s

/-- A checkpoint that arrives at a successor (R216). -/
def takeCheckpoint (data : List Byte) (s : State) : State :=
  match Config.decodeCheckpoint data with
  | some l => { s with rack := { s.rack with ckpt := some (ckptOf l), ckptRecv := s.clk.now } }
  | none => s

/-- The port of this SZ716 that faces a neighbour: LKB the shelf above and LKA the shelf below, in a closed ring (R20); for the one other shelf of a
ring of two, the port by which its request came. -/
def facing (src : Nat) (p : Port) (s : State) : Port :=
  let n := shelfCount s
  let above := if position s = n then 1 else position s + 1
  let below := if position s = 1 then n else position s - 1
  if above = below then p else if src = above then .lkb else if src = below then .lka else p

/-- An image resend request: a chunk that is held goes out again on the port that faces the neighbour which asks (R250). -/
def takeResend (src : Nat) (by' : Port) (data : List Byte) (s : State) : State :=
  match Config.decodeResend data with
  | some (id, i) =>
    let p := facing src by' s
    if id = s.ring.relayId.toNat ∧ (s.upd.chunks.contains i = true ∨ s.ring.relaySrc = true) then modPort p (fun q => { q with imageQ := q.imageQ ++ [i] }) s else s
  | none => s

/-- Delivers the data of a MSG, whose frame carried ring time t, by its channel. What messages of channel 0x02 say comes as the events RACK_STAGE_RECEIVED,
RACK_ORDER_RECEIVED, VERSION_REPORT, ACTIVATION_REQUEST and GRANT_RECEIVED, but for acknowledgements and aborts (log entry 9). -/
def deliver (p : Port) (src t chan : Nat) (data : List Byte) (s : State) : State :=
  if chan = 0 then takeEntry src t data s
  else if chan = 1 then takeCheckpoint data s
  else if chan = 2 then takeRackMsg src data s
  else if chan = 3 then takeLink data s
  else if chan = 4 then takeResend src p data s
  else s

/-- Sends the message that waits next for a destination. -/
def launchNext (dst : Byte) (s : State) : State :=
  match s.ring.msgQueue.find? (·.dst == dst) with
  | some m => launchMsg m { s with ring := { s.ring with msgQueue := s.ring.msgQueue.erase m } }
  | none => s

/-- An ACK ends the wait of its message (R249). -/
def takeAck (src seq : Byte) (s : State) : State :=
  if s.ring.flight.any fun m => m.dst == src && m.seq == seq then
    launchNext src (histFree 7 { s with ring := { s.ring with flight := s.ring.flight.filter fun m => !(m.dst == src && m.seq == seq) } })
  else s

/-- A MSG that this member takes: an ACK, or data, which is acknowledged unless it went to every member, and delivered once (R249). -/
def applyMsg (p : Port) (f : Frame) (s : State) : State :=
  let b := f.body
  let seq := b.getD 2 0
  let src := f.src.toNat
  let data := bytesAt b 8 (fieldAt b 4 2)
  let toAll := b.headD 0 == 0xFF
  if (b.getD 1 0).getLsbD 0 then takeAck f.src (b.getD 3 0) s
  else
    let s := if toAll then s
      else route (msgPort s f.src) 4 (msgBody f.src 1 0 seq (b.getD 6 0) []) s
    let t := frameTime s f
    if toAll then deliver p src t (b.getD 6 0).toNat data s
    else if (b.getD 1 0).getLsbD 1 ∨ getKey src s.ring.lastSeq ≠ some seq then
      deliver p src t (b.getD 6 0).toNat data { s with ring := { s.ring with lastSeq := putKey src seq s.ring.lastSeq } }
    else s

/-- MSG_RECEIVED (R249): a MSG to another member is only forwarded. -/
def takeMsg (p : Port) (f : Frame) (s : State) : State :=
  if f.ftype = 4 ∧ (f.body.headD 0 = 0xFF ∨ (f.body.headD 0).toNat = position s) then takeFrame p f (applyMsg p f) s else s

/-- MSG_RECEIVED (R248, R249). -/
def execMsgReceived (port : Port) (frame : Frame) (s : State) : Out := .next (takeMsg port frame s)

/-- The sender of a message that stays undelivered learns it: RELAY is answered BUSY (R249, Table 14-8). -/
def learnUndelivered (m : Msg) (s : State) : State :=
  let mine := fun (r : Req × Nat × BitVec 8) => r.2.1 == m.dst.toNat && r.2.2 == m.data.getD 2 0
  if m.chan = 0 then
    match s.ring.relays.find? mine with
    | some r =>
      let s := { s with ring := { s.ring with relays := s.ring.relays.filter fun q => !mine q } }
      if isPoll s r then afterReport s else finish r.1 0x02 [] s
    | none => s
  else s

/-- No ACK within 1 ms: the message goes out again on the other port with the same SEQ; after 4 retries it is undelivered (R249). -/
def retryMsg (dst : Byte) (s : State) : State :=
  match s.ring.flight.find? (·.dst == dst) with
  | none => s
  | some m =>
    let s := advanceTo m.due s
    let s := { s with ring := { s.ring with flight := s.ring.flight.erase m } }
    if m.tries < 4 then count 61 (launchMsg { m with port := otherPort m.port, tries := m.tries + 1 } s)
    else
      let s := count 62 { s with ring := { s.ring with undelivered := s.ring.undelivered ++ [(dst.toNat, m.chan.toNat)] } }
      launchNext dst (learnUndelivered m s)

/-- MSG_RETRY (R249). -/
def execMsgRetry (dst : Byte) (s : State) : Out := .next (retryMsg dst s)

/-! RELAY (R305, R327) -/

/-- RELAY as a state change: the inner request goes to the ring mailbox of the destination at the claimed level (R327). -/
def relayOp (req : Req) (dst rsv : Byte) (inner : BitVec 16) (payload : List Byte) (s : State) : State :=
  runChecked req 0x070A ⟨.monitor, true, false, false⟩ (decide (payload.length ≤ 240)) (rsv == 0) (fun s =>
    let d := dst.toNat
    if d = position s ∨ d = 0 ∨ shelfCount s < d ∨ inner = 0x070A then answer req 0x070A 0x11 [] s
    else
      match innerTag s d with
      | none => answer req 0x070A 0x02 [] s
      | some t =>
        let s := accept req 0x070A 0x01 (bvBytes 2 inner) s
        sendMsg d 0x00 (requestBytes inner.toNat t req.level payload) { s with ring := { s.ring with relays := s.ring.relays ++ [(req, d, t)] } }) s

/-- RELAY (R327). -/
def execRelay (req : Req) (dst rsv : Byte) (inner : BitVec 16) (payload : List Byte) (s : State) : Out :=
  .next (relayOp req dst rsv inner payload s)

end Sys2Proof.Machine
end

