-- ==== Sys2Proof/Machine/Member.lean ====
section
/-! DEFINITION. A member of the rack: obeying COMMAND, sending STATUS, and the loss of the leader (R202 to R204, R208, R215, R221). -/

namespace Sys2Proof.Machine

/-! Version reports (R371, Table 16-7) -/

/-- A version report: KIND 0x10, FLAGS, and VERSION, PROTO and the band of the active image. -/
def versionData (s : State) : List Byte :=
  let v := s.upd.active
  [0x10, if s.upd.actReq.isSome then 1 else 0] ++ bvBytes 4 v.version ++ bvBytes 2 v.proto ++ bvBytes 4 v.bandMin ++ bvBytes 4 v.bandMax

/-- The version report that such data carries. -/
def versionOf (b : List Byte) : VersionRep :=
  ⟨(b.getD 1 0).getLsbD 0, BitVec.ofNat 32 (fieldAt b 2 4), BitVec.ofNat 16 (fieldAt b 6 2), BitVec.ofNat 32 (fieldAt b 8 4), BitVec.ofNat 32 (fieldAt b 12 4)⟩

/-- The Wellhead holds a version report of a shelf; a grant that stands for that shelf ends (R371, R372). -/
def takeVersion (src : Nat) (v : VersionRep) (s : State) : State :=
  let s := modRow src (fun r => { r with version := some v }) s
  { s with rack := { s.rack with grantTo := s.rack.grantTo.filter (· != src) } }

/-- Sends a version report to the Wellhead last obeyed; a Wellhead notes its own (R371). -/
def reportVersion (s : State) : State :=
  if s.rack.wellhead then takeVersion (position s) (versionOf (versionData s)) s
  else if s.rack.leader != 0 then sendMsg s.rack.leader 0x02 (versionData s) s
  else s

/-- A member that follows a new leader reports its ports that are not UP, so that a hop that has never closed is reported as a break (R22, R247);
a new Wellhead notes its own. -/
def reportDownPorts (s : State) : State :=
  [Port.lka, Port.lkb].foldl (fun st p => if (portOf st p).state == .up then st else reportLink (hopOf st p) true st) s

/-! COMMAND at a shelf (R105, R106, R113, R202, R203, R221) -/

/-- phi(s) of a phase index (R113). -/
def phaseFor (s : State) (j m : Nat) : Nat := (roundRat ((j : Rat) * (s.parN 0x0321 : Rat) / (m : Rat))).toNat

/-- The carrier after an entry: a shelf without a phase starts from 0, and M of 0 or an index that is not below M keeps the phase; with the
shelf bypass switch open a new phase starts a move (R113). -/
def takePhase (j m : Nat) (s : State) : State :=
  let own := s.mod.phase.getD 0
  let goal := if 0 < m ∧ m ≤ 32 ∧ j < m then phaseFor s j m else if s.mod.phase.isSome then s.mod.phaseGoal else 0
  let s := settlePhase s
  slewFlag { s with mod := { s.mod with phase := some ((s.mod.phase).getD own), phaseGoal := goal,
                                        phaseSetAt := if goal = s.mod.phaseGoal then s.mod.phaseSetAt else s.clk.ring } }

/-- The shelf positions that a COMMAND shows in service: N is at least the highest of them (R20, R202). -/
def noteEntries (b : List Byte) (s : State) : State :=
  let slot := (b.getD 14 0).toNat
  [0, 1, 2, 3].foldl (fun st e => if (b.getD (19 + 4 * e) 0).getLsbD 5 then noteShelf (slot + e) st else st) s

/-- The entry of this shelf in a COMMAND, if the COMMAND carries it (R202); START_ABORT ends once ADMIT is clear (R94). -/
def takeEntryOf (b : List Byte) (s : State) : State :=
  let slot := (b.getD 14 0).toNat
  let me := position s
  if slot ≤ me ∧ me < slot + 4 then
    let o := 16 + 4 * (me - slot)
    let ef := b.getD (o + 3) 0
    let s := { s with mod := { s.mod with share := BitVec.ofNat 16 (fieldAt b o 2), phaseJ := b.getD (o + 2) 0, interleave := b.getD 13 0,
                                          eAdmit := ef.getLsbD 7, eHold := ef.getLsbD 6, eService := ef.getLsbD 5 }
                      lad := { s.lad with startAbort := s.lad.startAbort && ef.getLsbD 7 } }
    if ef.getLsbD 5 then takePhase (b.getD (o + 2) 0).toNat (b.getD 13 0).toNat s else s
  else s

/-- V(cmd) of the period that a COMMAND governs (R203): f(s) X within the bounds of the last page-1 STATUS; the present value under
HOLD_SHARE or out of service. -/
def commandedV (s : State) (x : Rat) : Rat :=
  if s.mod.eService && !s.mod.eHold then
    clampRat ((s.mod.share.toNat : Rat) / 65536 * x) ((s.mod.vlo : Rat) / 100) ((s.mod.vhi : Rat) / 100)
  else s.mod.vcmd

/-- An epoch that is obeyed for the first time is kept in the journal (R342), and a takeover is counted (R219,
counter 90). -/
def takeEpoch (e : BitVec 32) (s : State) : State :=
  if s.rack.everObeyed && e == s.rack.obeyed then s
  else
    let seen := s.rack.everObeyed
    let s := { s with rack := { s.rack with obeyed := e, highEpoch := if newer e s.rack.highEpoch then e else s.rack.highEpoch, everObeyed := true } }
    let s := if seen then count 90 s else s
    commitItems 0x1 { JItems.reset with epoch := some e } s

/-- The shelf obeys a COMMAND for period p (R105, R203, R221): its epoch and leader, X, the flags of the rack, its entry, and the voltage
of the period. One whose PLANT or SHELF is unassigned follows the leader and takes no part in regulation: its ladder goes over to voltage
hold (R5; log entry 143). -/
def obey (src p : Nat) (b : List Byte) (s : State) : State :=
  let x := (f32Val (fieldAt b 8 4)).getD s.rack.xLast
  let fl := b.getD 12 0
  let e := BitVec.ofNat 32 (fieldAt b 0 4)
  let fresh := !s.rack.everObeyed || e != s.rack.obeyed
  let s := noteEntries b s
  let s := { s with rack := { s.rack with lossOpen := s.rack.lossOpen && !newer e s.rack.obeyed } }
  let s := takeEpoch e { s with rack := { s.rack with leader := src } }
  let s := if fresh then reportDownPorts (reportVersion s) else s
  let s := { s with rack := { s.rack with lost := false, heardCmd := true, xLast := x, busHu := fl.getLsbD 0, contactor := fl.getLsbD 1 } }
  if !located s then { s with mod := { s.mod with lastCmdAt := s.clk.now } }
  else
    let s := noteReady (hostReady s) (takeEntryOf b s)
    { s with mod := { s.mod with nextCmd := some (commandedV s x), nextFor := p, lastCmdAt := s.clk.now, missedRun := 0 } }

/-- A COMMAND that is valid: one of an older epoch than the last obeyed is discarded; a Wellhead yields to a newer epoch and discards
every other COMMAND (R220, R221). -/
def applyCommand (f : Frame) (s : State) : State :=
  let e := BitVec.ofNat 32 (fieldAt f.body 0 4)
  let p := commandPeriod s f
  if s.rack.wellhead then
    (if newer e s.rack.epoch then obey f.src.toNat p f.body (loseRole f.src.toNat s) else s)
  else if s.rack.everObeyed && newer s.rack.obeyed e then s
  else obey f.src.toNat p f.body s

/-- COMMAND_RECEIVED (R106, R202, R203, R221). -/
def execCommandReceived (port : Port) (frame : Frame) (s : State) : Out :=
  .next (if frame.ftype = 1 then takeFrame port frame (applyCommand frame) s else s)

/-! STATUS (R204, R208, R223) -/

/-- STATUS_SEND: at each 200 us instant of ring time, pages 0 and 1 in turn (R204). -/
def sendRegular (s : State) : State :=
  if s.clk.pstate != .run || !s.clk.ringKnown then s
  else
    let s := advanceRing (instantFrom 200000 0 (s.clk.ring + 1)) s
    sendStatus (decide (s.clk.ring / 200000 % 2 = 1)) s

/-- STATUS_SEND (R204). -/
def execStatusSend (s : State) : Out := .next (sendRegular s)

/-- STATUS_UNSCHEDULED: page 1 within 20 us of its cause, beside the regular cadence (R204). -/
def execStatusUnscheduled (s : State) : Out := .next (if s.clk.ringKnown then sendStatus true s else s)

/-- After a rack wake the Wellhead notes the shore-held ring time that a STATUS gives with its shelf, which HIGH takes in (R62, R245). -/
def noteReport (f : Frame) (s : State) : State :=
  if s.clk.firstSyncDue then { s with clk := { s.clk with shoreReports := putKey (fieldAt f.body 0 1) (frameTime s f) s.clk.shoreReports,
                                                            high := max s.clk.high (frameTime s f) } } else s

/-- A STATUS that the Wellhead takes; a new CFG_MISMATCH writes its event record (R208, R223). -/
def applyStatus (f : Frame) (s : State) : State :=
  let r := takeStatus f.body (noteReport f s)
  if r.2 then raise 5 .contained 0 (fieldAt f.body 0 1) r.1 else r.1

/-- STATUS_RECEIVED (R208, R223): a member only forwards it. -/
def execStatusReceived (port : Port) (frame : Frame) (s : State) : Out :=
  .next (if frame.ftype = 3 ∧ s.rack.wellhead = true then takeFrame port frame (applyStatus frame) s else s)

/-! Loss of the leader (R215) -/

/-- A member that has had no valid COMMAND for 5 periods declares the leader lost: FSTAT LEADER; a sleep vote in progress is aborted
(R215, Table 9-10). -/
def loseLeader (s : State) : State :=
  if s.clk.pstate != .run || s.rack.wellhead || !s.rack.everObeyed || s.rack.lost then s
  else
    let s := advanceTo (max s.rack.runAt s.mod.lastCmdAt + us 50) s
    raise 17 .contained 0 0 { s with rack := { s.rack with lost := true, lostAt := s.clk.now, lossOpen := true, votedYes := none } }

/-- LEADER_LOSS (R215). -/
def execLeaderLoss (s : State) : Out := .next (loseLeader s)

end Sys2Proof.Machine
end

