-- ==== Sys2Proof/Machine/Wellhead.lean ====
section
/-! DEFINITION. The Wellhead's cycle: estimate, reference, Weir, loop, share solution and COMMAND (R201 to R214), its commands, and bus
hold-up. -/

namespace Sys2Proof.Machine

/-! The Weir (R212, R213, Table 9-5) -/

/-- One contribution: its code, its value in A, and the shelf it comes from, 0 for none. -/
structure Contribution where
  code : Nat
  amps : Rat
  shelf : Nat
  deriving DecidableEq, Repr

/-- A per-shelf limit with LSB 0.1 A: 0xFFFF is none. -/
def shelfLimit (code : Nat) (get : ShelfRow → BitVec 16) (s : State) : List Contribution :=
  (serviceShelves s).filterMap fun h =>
    let v := get (row s h)
    if v = 0xFFFF then none else some ⟨code, (v.toNat : Rat) / 10, h⟩

/-- The plant contribution in a direction: a current, or a power over the bus estimate (Table 9-5); a power bounds nothing while that is not
positive (DESIGN CHOICE, log entry 204). -/
def plantLimit (s : State) (charge : Bool) : List Contribution :=
  let p := s.rack.plant
  let v := if charge then p.ch else p.dis
  if !p.given then []
  else if !p.power then [⟨2, v, 0⟩]
  else if s.rack.vBus ≤ 0 then [] else [⟨2, v * 1000 / s.rack.vBus, 0⟩]

/-- The configured rack limit; a Wellhead whose CURRENT source has been severe takes half its Hall range where that is lower (Table
12-5). -/
def rackLimit (s : State) (charge : Bool) : Rat :=
  let c : Rat := if charge then s.par2 0x0706 else s.par 0x0706
  if s.flt.halfHall then minRat c ((s.parN 0x0405 : Rat) / 2) else c

/-- R(path) in use: the trimmed value within 25 % of the configured one (R205). -/
def pathOhm (s : State) : Rat :=
  let c : Rat := (s.parN 0x0702 : Rat) / 1000
  clampRat s.rack.rpath (c * 3 / 4) (c * 5 / 4)

/-- The contributions of a direction in the order of Table 9-5. -/
def contributions (s : State) (charge : Bool) : List Contribution :=
  let l := serviceShelves s
  let up := (((List.range 32).map (· + 1)).find? fun h => (row s h).flag 11 || (row s h).fell)
  let volts := fun (get : ShelfRow → BitVec 16) => sumRat (l.map fun h => ((get (row s h)).toNat : Rat) / 100)
  let room := if charge then s.rack.vBus - volts (·.vlo) else volts (·.vhi) - s.rack.vBus
  (match up with
    | some h => [⟨1, 0, h⟩]
    | none => [])
  ++ plantLimit s charge ++ [⟨3, rackLimit s charge, 0⟩, ⟨4, maxRat 0 (room / pathOhm s), 0⟩]
  ++ shelfLimit 5 (fun r => if charge then r.istkCh else r.istk) s ++ shelfLimit 6 (·.ith) s
  ++ shelfLimit 7 (fun r => if charge then r.ilimCh else r.ilim) s
  ++ (if s.rack.reversing && s.rack.refCh == some charge then [⟨8, (s.parN 0x070E : Rat), 0⟩] else [])

/-- The lowest contribution; of equal ones the earlier (R212). -/
def lowestOf : List Contribution → Contribution → Contribution
  | [], c => c
  | d :: ds, c => lowestOf ds (if d.amps < c.amps then d else c)

/-- The Weir of a direction. -/
def weir (s : State) (charge : Bool) : Contribution :=
  match contributions s charge with
  | c :: cs => lowestOf cs c
  | [] => ⟨3, rackLimit s charge, 0⟩

/-- Takes the Weir of a direction; a change of its code writes an event record, at most one per second and direction (R214). -/
def takeWeir (charge : Bool) (s : State) : State :=
  let c := weir s charge
  let old := if charge then s.rack.codeCh else s.rack.codeDis
  let at' := if charge then s.rack.codeAtCh else s.rack.codeAtDis
  let write := old != BitVec.ofNat 4 c.code && at'.all fun t => decide (t + sec 1 ≤ s.clk.now)
  let s := if write then plainEvent (if charge then 0x21 else 0x20) 0 s else s
  let mark := if write then some s.clk.now else at'
  if charge then { s with rack := { s.rack with weirCh := c.amps, codeCh := BitVec.ofNat 4 c.code, shelfCh := c.shelf, codeAtCh := mark } }
  else { s with rack := { s.rack with weirDis := c.amps, codeDis := BitVec.ofNat 4 c.code, shelfDis := c.shelf, codeAtDis := mark } }

/-! The share solution (R208, R209) -/

/-- One shelf that shares: its share and its bounds. -/
structure Part where
  h : Nat
  f : Rat
  lo : Rat
  hi : Rat
  deriving DecidableEq, Repr

/-- The shelves that share. -/
def sharingParts (s : State) : List Part :=
  (sharing s).map fun h =>
    let r := row s h
    ⟨h, (r.share.toNat : Rat) / 65536, (r.vlo.toNat : Rat) / 100, (r.vhi.toNat : Rat) / 100⟩

/-- V(cmd,s) at level x (R203). -/
def Part.volts (x : Rat) (p : Part) : Rat := clampRat (p.f * x) p.lo p.hi

/-- The voltage of the shelves that share at level x. -/
def partSum (ps : List Part) (x : Rat) : Rat := sumRat (ps.map (Part.volts x))

/-- The segment that contains the target, and whether X is clamped to an end (R208). -/
def scanX (ps : List Part) (v : Rat) : List Rat → Rat × Bool
  | [] => (0, true)
  | [a] => (a, decide (partSum ps a ≠ v))
  | a :: b :: pts =>
    let sa := partSum ps a
    let sb := partSum ps b
    if v ≤ sa then (a, decide (v < sa))
    else if v ≤ sb then (a + (v - sa) * (b - a) / (sb - sa), false)
    else scanX ps v (b :: pts)

/-- X by the breakpoint method of R114; without a shelf that can move, X stays (R208). -/
def solveX (s : State) (ps : List Part) (v : Rat) : Rat × Bool :=
  let moving := ps.filter fun p => decide (0 < p.f)
  if moving.isEmpty then (s.rack.xLast, true)
  else scanX ps v ((moving.flatMap fun p => [p.lo / p.f, p.hi / p.f]).foldr insertRat [])

/-! Admission (R209) and the lease (R220) -/

/-- A shelf that the Wellhead may admit: READY, in service order, its digest the Wellhead's (R209, R223). -/
def admissible (s : State) (h : Nat) : Bool :=
  let r := row s h
  r.seen.isSome && r.flag 15 && !r.flag 14 && !r.flag 12 && !r.flag 8 && !r.mismatch && bvBytes 8 r.digest == digestOf s.cfg.params

/-- The order in which shelves are tried for admission (log entry 20): one whose switch stands open, the own shelf while its switch is closed, which
keeps a Wellhead from measuring the current (R201), then by position. -/
def admissionOrder (s : State) : List Nat := startingShelves s ++ (if s.lad.sby then [position s] else []) ++ (List.range (shelfCount s)).map (· + 1)

/-- The Wellhead admits at most one shelf at a time (R209). -/
def chooseAdmission (s : State) : State :=
  if s.rack.admitting.isSome then s
  else { s with rack := { s.rack with admitting := (admissionOrder s).find? (admissible s) } }

/-- STATUS has come within 400 us from more than half of the in-service shelves, counting the Wellhead's own (R220); with no
shelf in service the lease is renewed (DESIGN CHOICE, log entry 203). -/
def majority (s : State) : Bool :=
  let l := serviceShelves s
  let near := l.filter fun h => h == position s || (row s h).seen.any fun t => decide (s.clk.now ≤ t + us 400)
  l.isEmpty || decide (l.length < 2 * near.length)

/-- Renews the lease (R220). -/
def renewLease (s : State) : State :=
  if majority s then { s with rack := { s.rack with leaseUntil := s.clk.now + us 1600 } } else s

/-! The cycle (R201, Table 9-1) -/

/-- The dispatches whose time has come: the later T_APPLY stands, at equal ones the one received later (R206, R327). -/
def takeDispatch (t : Nat) (s : State) : State :=
  let due := s.rack.dispatch.filter fun d => decide (d.apply ≤ t)
  match due with
  | [] => s
  | d :: ds =>
    let best := ds.foldl (fun b e => if b.apply ≤ e.apply then e else b) d
    { s with rack := { s.rack with vd := some best.vd, plant := best.limits, plantStale := false, dispatch := s.rack.dispatch.filter fun d => !decide (d.apply ≤ t) } }

/-- The bus estimate over the current window (R205); v_str_applied is what the commands of two periods before set, X before there are
such commands (log entry 21). -/
def estimateBus (s : State) : State :=
  let i := if s.rack.iWin.isEmpty then stringA s else sumRat s.rack.iWin / (s.rack.iWin.length : Rat)
  let di := i - s.rack.iPrev.getD i
  let v := s.rack.vSet.getD 1 s.rack.xLast - i * pathOhm s - (s.parN 0x0703 : Rat) * di / 10
  { s with rack := { s.rack with iStr := i, iPrev := some i, vBus := v } }

/-- Bus hold-up begins at the second consecutive estimate below V(sag) while armed; its exit level is watched (R211). -/
def watchSag (s : State) : State :=
  let sag : Rat := s.par 0x0707
  let v := s.rack.vBus
  if s.rack.busHu then
    let above := decide (sag + (s.par 0x070B : Rat) < v)
    { s with rack := { s.rack with sagClear := holdSince s.clk.now above s.rack.sagClear, sagRun := 0 } }
  else
    let n := if s.par 0x070A = 1 ∧ s.rack.contactor = true ∧ v < sag then s.rack.sagRun + 1 else 0
    { s with rack := { s.rack with sagRun := if 2 ≤ n then 0 else n, busHu := decide (2 ≤ n), sagClear := none } }

/-- The droop centre in force (R327). -/
def droopCentre (s : State) : Rat := s.rack.vd.getD ((s.parN 0x0700 : Rat) / 10)

/-- The reference before the Weir (R206, R211). -/
def rawRef (s : State) : Rat :=
  if s.rack.busHu then ((s.par 0x0708 : Rat) - s.rack.vBus) / ((s.parN 0x0709 : Rat) / 1000)
  else (droopCentre s - s.rack.vBus) / ((droopMilli s : Rat) / 1000)

/-- A change of the sign of the reference starts the reversal limit; it ends when every in-service shelf has reported the new direction
(R213). -/
def watchSign (ref : Rat) (s : State) : State :=
  let now := if ref = 0 then s.rack.refCh else some (decide (ref < 0))
  let turned := s.rack.refCh.isSome && now != s.rack.refCh
  let fresh := fun (r : ShelfRow) => { r with dirOk := now.any (r.flag 6 == ·) }
  let s := if turned then { s with rack := { s.rack with rows := s.rack.rows.map fresh } } else s
  let s := { s with rack := { s.rack with refCh := now, reversing := s.rack.reversing || turned } }
  { s with rack := { s.rack with reversing := s.rack.reversing && !(serviceShelves s).all fun h => (row s h).dirOk } }

/-- The loop and the share solution: V(str), X and the integrator, which is held while X is clamped or the string-voltage contribution sets the
limit of the present direction (R201, R207, R208). -/
def runLoop (s : State) : State :=
  let ps := sharingParts s
  let held := sumRat ((heldShelves s).map fun h => (row s h).vheld)
  let kp : Rat := (s.parN 0x0704 : Rat) / 1000
  let e := s.rack.iRef - s.rack.iStr
  let base := s.rack.vBus + s.rack.iRef * pathOhm s + kp * e
  if s.rack.rebase then
    let v := held + partSum ps s.rack.xLast
    { s with rack := { s.rack with integ := v - base, vStr := v, rebase := false } }
  else
    let v := base + s.rack.integ
    let r := solveX s ps (v - held)
    let code := if s.rack.refCh = some true then s.rack.codeCh else s.rack.codeDis
    let stop := r.2 || code == 4
    { s with rack := { s.rack with vStr := v, xLast := toF32 r.1, integ := if stop then s.rack.integ else s.rack.integ + 10 / (s.parN 0x0705 : Rat) * kp * e } }

/-- Marks the rebase of the integrator when the shelves that share, are held or start have changed (R207), and deals the phase indices
anew (R209, R113). -/
def watchRoster (s : State) : State :=
  let r := [sharing s, heldShelves s, startingShelves s]
  let s := { s with rack := { s.rack with phases := (serviceShelves s).filter fun h => !underHold s h } }
  if r = s.rack.roster then s
  else updateShares { s with rack := { s.rack with roster := r, rebase := s.rack.rebase || !s.rack.roster.isEmpty } }

/-- The string voltage that this command sets, and each sharing shelf's V(cmd) (R201, R208). -/
def noteVolts (s : State) : State :=
  let ps := sharingParts s
  let v := sumRat ((heldShelves s).map fun h => (row s h).vheld) + partSum ps s.rack.xLast
  let s := { s with rack := { s.rack with vSet := (v :: s.rack.vSet).take 3 } }
  ps.foldl (fun st p => modRow p.h (fun r => { r with vheld := p.volts s.rack.xLast }) st) s

/-- The entry of a shelf in COMMAND (Table 9-2). An in-service shelf that is not interleaved gets an index that is not below M, which
keeps its phase (R113, R209; log entry 22). -/
def commandEntry (s : State) (h : Nat) : List Byte :=
  if h = 0 || decide (shelfCount s < h) || !inService s h then [0, 0, 0, 0]
  else
    let r := row s h
    let m := s.rack.phases.length
    let j := (s.rack.phases.findIdx? (· == h)).getD (min 31 m)
    bvBytes 2 r.share ++ leBytes 1 j ++ leBytes 1 (bit (s.rack.admitting == some h) 7 + bit (underHold s h) 6 + 32)

/-- The COMMAND body for period p (Table 9-2). -/
def commandBody (s : State) (p : Nat) : List Byte :=
  let slot := 1 + 4 * (p % 8)
  bvBytes 4 s.rack.epoch ++ leBytes 4 (p % 2 ^ 32) ++ leBytes 4 (f32Bits s.rack.xLast)
  ++ leBytes 1 (bit s.rack.busHu 0 + bit s.rack.contactor 1 + bit (decide (s.rack.iRef < 0)) 2) ++ leBytes 1 (min 32 s.rack.phases.length)
  ++ leBytes 1 slot ++ [0] ++ (List.range 4).flatMap fun i => commandEntry s (slot + i)

/-- Issues the COMMAND for period p at T(p) - 8 us on both ports; the Wellhead's own shelf obeys it too (R105, R201, R202). -/
def issueCommand (p : Nat) (s : State) : State :=
  let s := advanceRing (10000 * p - 8000) s
  let b := commandBody s p
  obey (position s) p b (flood (ownFrame s 1 (10000 * p - 8000) b) s)

/-- One Wellhead cycle (R201). -/
def runCycle (s : State) : State :=
  let s := advanceRing (instantFrom 10000 500 s.clk.ring) s
  let p := s.clk.ring / 10000 + 1
  let s := watchRoster (chooseAdmission (renewLease (takeDispatch (10000 * p) s)))
  let s := watchSag (estimateBus s)
  let raw := rawRef s
  let s := takeWeir true (takeWeir false (watchSign raw s))
  let ref := clampRat raw (-s.rack.weirCh) s.rack.weirDis
  let hit := decide (ref ≠ raw)
  let s := if hit then count 70 s else s
  issueCommand p (noteVolts (runLoop { s with rack := { s.rack with iRef := ref } }))

/-- This shelf may hold the role: its place is assigned (R5), and its shelf bypass switch is open (R201). -/
def mayHold (s : State) : Bool := located s && !s.lad.sby

/-- The Wellhead runs its cycle: the role is held and may be, the shelf is in Run with its ring time, and the lease stands (R201, R220). -/
def cycling (s : State) : Bool :=
  s.rack.wellhead && mayHold s && onRing s && s.clk.ringKnown && s.clk.inReset.isNone && !s.dbg.haltedLp && decide (s.clk.now < s.rack.leaseUntil)

/-- WELLHEAD_CYCLE (R201): a Wellhead that may not hold the role any more gives it up. -/
def execWellheadCycle (s : State) : Out := .next (if cycling s then runCycle s else if s.rack.wellhead ∧ mayHold s = false then yieldRole s else s)

/-! Bus hold-up ends (R211) -/

/-- The droop law resumes with X unchanged (R207, R211). -/
def endBusHoldup (s : State) : State := { s with rack := { s.rack with busHu := false, sagClear := none, sagRun := 0, rebase := true } }

/-- BUS_HOLDUP_EXIT: 100 ms above V(sag) plus the exit hysteresis (R211). -/
def execBusHoldupExit (s : State) : Out :=
  .next (match s.rack.sagClear with
    | some t => if s.rack.wellhead ∧ s.rack.busHu = true then endBusHoldup (advanceTo (t + ms 100) s) else s
    | none => s)

/-! The Wellhead's commands (Table 14-8) -/

/-- A mask of shelf positions: bit s - 1 for shelf s. -/
def shelfMask (f : Nat → Bool) : Nat := maskOf ((List.range 32).map fun i => f (i + 1))

/-- The Weir report (Table 9-6). -/
def weirReport (s : State) : List Byte :=
  leBytes 2 (reportNat 16 (s.rack.weirDis * 10)) ++ leBytes 2 (reportNat 16 (s.rack.weirCh * 10))
  ++ leBytes 1 (s.rack.codeDis.toNat * 16 + s.rack.codeCh.toNat) ++ leBytes 1 s.rack.shelfDis ++ leBytes 1 s.rack.shelfCh ++ [0]

/-- The response of RACK_STATUS (Table 14-8). -/
def rackFields (s : State) : List Byte :=
  let r := s.rack
  let i := max (-32768) (min 32767 (roundRat (r.iStr * 10)))
  weirReport s ++ bvBytes 4 r.epoch ++ ((r.succ ++ [0, 0, 0]).take 3).map (BitVec.ofNat 8)
  ++ leBytes 2 (reportNat 16 (r.vStr * 10)) ++ leBytes 2 (reportNat 16 (r.vBus * 10)) ++ leInt 2 i
  ++ leBytes 4 (shelfMask (inService s)) ++ leBytes 4 (shelfMask fun h => (row s h).flag 14) ++ leBytes 4 (shelfMask fun h => (row s h).mismatch)
  ++ leBytes 4 (shelfMask fun h => s.ring.linkDown.any (hopNo s · == h))
  ++ leBytes 1 (bit r.busHu 0 + bit r.contactor 1 + bit r.plantStale 2 + bit (!s.ring.linkDown.isEmpty) 3 + bit r.voting 4)

/-- RACK_STATUS as a state change. -/
def rackStatusOp (req : Req) (s : State) : State := runCommand req 0x0701 ⟨.monitor, true, true, false⟩ (reply req 0x0701 rackFields) s

/-- RACK_STATUS (R326). -/
def execRackStatus (req : Req) (s : State) : Out := .next (rackStatusOp req s)

/-- RACK_DISPATCH as a state change (R327). -/
def rackDispatchOp (req : Req) (vd : BitVec 16) (tApply : BitVec 64) (limDis limCh : BitVec 16) (kind : Byte) (s : State) : State :=
  runCommand req 0x0702 ⟨.operator, true, true, false⟩ (fun s =>
    let t := tApply.toNat
    if 15000 < vd.toNat ∨ s.clk.ring + sec 1 < t ∨ 1 < kind.toNat then answer req 0x0702 0x11 [] s
    else
      let unit : Rat := if kind = 1 then 1 else 1 / 10
      let d : Dispatch := ⟨(vd.toNat : Rat) / 10, t, ⟨true, kind == 1, unit * (limDis.toNat : Rat), unit * (limCh.toNat : Rat)⟩⟩
      let effect := max (instantFrom 10000 0 t) (10000 * (s.clk.ring / 10000 + 1))
      answer req 0x0702 0x00 (leBytes 8 effect) { s with rack := { s.rack with dispatch := s.rack.dispatch ++ [d] } }) s

/-- RACK_DISPATCH (R327, R206). -/
def execRackDispatch (req : Req) (vd : BitVec 16) (tApply : BitVec 64) (limDis limCh : BitVec 16) (kind : Byte) (s : State) : Out :=
  .next (rackDispatchOp req vd tApply limDis limCh kind s)

/-- R(path) is trimmed by the mean error of the estimate with a 1 s time constant, within 25 % of its configured value; no error can be
formed below 1 A (R205, log entry 23). -/
def trimPath (v : Rat) (dt : Nat) (s : State) : State :=
  if absRat s.rack.iStr < 1 then s
  else
    let a : Rat := 1 - expNeg ((dt : Rat) / 1000000000)
    let r := pathOhm s + (s.rack.vBus - v) / s.rack.iStr * a
    let s := { s with rack := { s.rack with rpath := r } }
    { s with rack := { s.rack with rpath := pathOhm s } }

/-- RACK_BUS as a state change: reports after the first within 1 ms give their CONTACTOR state only (R327). An open contactor ends the 0 A
of a shelf in hold-up, R103. -/
def rackBusOp (req : Req) (vbus : BitVec 16) (contactor : Byte) (s : State) : State :=
  runCommand req 0x0703 ⟨.operator, true, true, false⟩ (fun s =>
    if 1 < contactor.toNat then answer req 0x0703 0x11 [] s
    else
      let drop := fun (r : ShelfRow) => { r with sflags := r.sflags &&& 0xF7FF#16, fell := false }
      let s := { s with rack := { s.rack with contactor := contactor == 1, rows := if contactor = 0 then s.rack.rows.map drop else s.rack.rows } }
      let near := s.rack.busAt.any fun t => decide (s.clk.now < t + ms 1)
      let v : Rat := (vbus.toNat : Rat) / 10
      let dt := (s.rack.busAt.map fun t => s.clk.now - t).getD (ms 1)
      let s := if near then s else { trimPath v dt s with rack := { (trimPath v dt s).rack with busAt := some s.clk.now, busMeas := some v } }
      answer req 0x0703 0x00 [] s) s

/-- RACK_BUS (R327, R205). -/
def execRackBus (req : Req) (vbus : BitVec 16) (contactor : Byte) (s : State) : Out := .next (rackBusOp req vbus contactor s)

/-- HOLDUP_CLEAR as a state change: BAD_STATE outside bus hold-up (R211). -/
def holdupClearOp (req : Req) (s : State) : State :=
  runCommand req 0x0704 ⟨.operator, true, true, false⟩ (fun s =>
    if s.rack.busHu then answer req 0x0704 0x00 [] (endBusHoldup s) else answer req 0x0704 0x12 [] s) s

/-- HOLDUP_CLEAR (R211). -/
def execHoldupClear (req : Req) (s : State) : Out := .next (holdupClearOp req s)

/-- The response of RING_STATUS (Table 14-8). -/
def ringFields (s : State) : List Byte :=
  let d := fun (q : PortS) => leBytes 4 (reportNat 32 q.delay)
  leBytes 2 (ringWord s) ++ d s.ring.lka ++ d s.ring.lkb ++ leBytes 8 (highTime s) ++ bvBytes 4 (if s.rack.wellhead then s.rack.epoch else s.rack.obeyed)
  ++ bvBytes 4 s.ring.rejected

/-- RING_STATUS as a state change. -/
def ringStatusOp (req : Req) (s : State) : State := runCommand req 0x0709 (.atLevel .monitor) (reply req 0x0709 ringFields) s

/-- RING_STATUS (R326). -/
def execRingStatus (req : Req) (s : State) : Out := .next (ringStatusOp req s)

end Sys2Proof.Machine
end

