-- ==== Sys2Proof/Machine/Succession.lean ====
section
/-! DEFINITION. Who holds the Wellhead role: succession, rank, planned handover, the lease and checkpoints (R215 to R220). -/

namespace Sys2Proof.Machine

/-- A row that a checkpoint gives a new Wellhead until the shelf's own STATUS comes: in service with the checkpoint's weight and the share that it
makes of the sum of all, its bounds unknown, and the shelf that is being admitted at 0 V (R208, R216, Table 9-10, log entry 24). -/
def seedRow (x : Rat) (admits : Bool) (sum w : Nat) : ShelfRow :=
  if w = 0 && !admits then ShelfRow.reset
  else
    let f : Nat := min 0xFFFF (roundRat ((w : Rat) / (sum : Rat) * 65536)).toNat
    { ShelfRow.reset with seen := some 0, sflags := if admits then 0x8000#16 else 0xC000#16, share := BitVec.ofNat 16 f, vhi := 0xFFFF#16, wCk := (w : Rat) / 65536,
                          vheld := if admits then 0 else clampRat ((f : Rat) / 65536 * x) 0 65535 }

/-- What a checkpoint gives a new Wellhead (R216, R225); a sleep vote and a stage end with the old leader (Table 9-10). -/
def fromCheckpoint (c : Checkpoint) (s : State) : State :=
  { s with rack := { s.rack with vd := c.vd, rd := some c.rd, plant := c.plant, plantStale := false, rpath := c.rpath, phases := c.phases,
                                 voteNo := c.voteNo, rows := mapLvl c.weights fun i w => seedRow s.rack.xLast (c.admits == some (i + 1)) (c.weights.foldl (· + ·) 0) w,
                                 admitting := c.admits } }

/-- A Wellhead without a checkpoint: the configured droop centre and R(path), and as plant limits the magnitude of the string current,
until a gateway refreshes them (R217, R327). At a rack's first Run entry there is no limit to stand in for (log entry 24). -/
def fromNothing (first : Bool) (s : State) : State :=
  let i := absRat (stringA s)
  { s with rack := { s.rack with vd := none, plant := if first then PlantLimit.reset else ⟨true, false, i, i⟩, plantStale := !first,
                                 rpath := (s.parN 0x0702 : Rat) / 1000, rows := List.replicate 32 ShelfRow.reset, admitting := none } }

/-- The successors of a new Wellhead: those its rows show, or while they show none the three places after its own (R216, R217; log entry 24). -/
def firstSuccessors (s : State) : List Nat :=
  let l := successors s
  if l.isEmpty then (circleAfter s (position s)).take 3 else l

/-- The role is taken with an epoch (R217, R219): X goes on unchanged (R207), ring time with no step, and a checkpoint goes to the new
successors at once. -/
def takeRole (epoch : BitVec 32) (ck : Option Checkpoint) (first : Bool) (s : State) : State :=
  let s := match ck with
    | some c => fromCheckpoint c s
    | none => fromNothing first s
  let s := { s with
    rack := { s.rack with
      wellhead := true, epoch := epoch, highEpoch := epoch, lost := false, lossOpen := false, takeoverAt := s.clk.now, leaseUntil := s.clk.now + us 1600
      rebase := true, roster := [sharing s, heldShelves s, startingShelves s], iPrev := none, vSet := [], refCh := none, reversing := false, sagRun := 0
      sagClear := none, dispatch := [], busAt := none, voting := false, voteReq := none, voteYes := [], staging := false, staged := false, stage := []
      handAt := none, grantTo := none, ckpt := none, gaveWay := [] }
    ring := { s.ring with linkDown := [] } }
  let s := { s with clk := { s.clk with phaseErr := 0, slewAt := s.clk.now } }
  let s := raise 17 .contained 1 0 (sendStatus true (reportDownPorts s))
  sendCheckpoint none { s with rack := { s.rack with succ := firstSuccessors s } }

/-- The member may take the role: in Run with a place on the ring, not out of service nor in shelf hold-up, and with its shelf bypass switch open
(R201, R219; log entry 24). -/
def mayLead (s : State) : Bool :=
  onRing s && configured s && !s.lad.oos && !s.sup.holdup && s.clk.inReset.isNone && !s.dbg.haltedLp && !s.lad.sby

/-- The rank in the succession list: that of the checkpoint, or without one the place in the leader order after the leader's own (R216,
R217). -/
def successorRank (s : State) : Option Nat :=
  let l := match s.rack.ckpt with
    | some c => c.succ
    | none => (circleAfter s s.rack.leader).take 3
  (l.findIdx? (· == position s)).map (· + 1)

/-- When a successor takes the role after declaring loss (R217). -/
def slotOf (r : Nat) : Nat := if r ≤ 1 then us 150 else if r = 2 then us 400 else us 800

/-- When its slot has passed unused (R217). -/
def slotEnd (r : Nat) : Nat := if r ≤ 1 then us 200 else if r = 2 then us 600 else us 1000

/-- SUCCESSOR_TAKEOVER: successor r takes the role with epoch E + r, unless a newer epoch has been heard since the loss (R217). -/
def succeed (s : State) : State :=
  match successorRank s with
  | none => s
  | some r =>
    if s.rack.wellhead || !s.rack.lossOpen || !mayLead s || decide (s.rack.lostAt + slotEnd r < s.clk.now) then s
    else
      let s := advanceTo (s.rack.lostAt + slotOf r) s
      takeRole (s.rack.highEpoch + BitVec.ofNat 32 r) (if holdsCkpt s then s.rack.ckpt else none) false s

/-- SUCCESSOR_TAKEOVER (R217). -/
def execSuccessorTakeover (s : State) : Out := .next (succeed s)

/-- The rank in the configured leader order, from 1 (R219). -/
def leaderRank (s : State) : Option Nat := ((paramIn s.cfg.effective 0x070F).findIdx? (· == (position s : Int))).map (· + 1)

/-- The rack's first Run entry: no COMMAND has been obeyed since power-on reset, and the journal holds no epoch (R219; log entry 24). -/
def firstRun (s : State) : Bool := !s.rack.heardCmd && !s.rack.everObeyed

/-- RANK_TAKEOVER: after 1.2 ms + r ms without a valid COMMAND, counted from the own Run entry where none has been heard since power-on reset, the
member of rank r takes the role with epoch H + 3 + r; a Wellhead that has no ring time starts it at HIGH plus 1 s (R219, R245; log entry 24). -/
def takeByRank (s : State) : State :=
  match leaderRank s with
  | none => s
  | some r =>
    let first := firstRun s
    if s.rack.wellhead || !mayLead s || (s.rack.heardCmd && !s.rack.lost) then s
    else
      let s := advanceTo ((if s.rack.heardCmd then s.mod.lastCmdAt else s.rack.runAt) + us 1200 + ms r) s
      let s := if s.clk.ringKnown then s
        else
          let up := s.ring.lka.state == .up || s.ring.lkb.state == .up
          let s := stepRing (highTime s + sec 1) s
          { s with clk := { s.clk with ringKnown := true, timeState := .synced, trained := s.clk.trained || up } }
      takeRole (s.rack.highEpoch + 3 + BitVec.ofNat 32 r) (if holdsCkpt s then s.rack.ckpt else none) first s

/-- RANK_TAKEOVER (R219). -/
def execRankTakeover (s : State) : Out := .next (takeByRank s)

/-- The activation request of this shelf (Table 16-7). -/
def activationData (s : State) : List Byte :=
  let v := s.upd.imgInfo
  [0x11, 0] ++ bvBytes 4 v.version ++ bvBytes 2 v.proto ++ bvBytes 4 v.bandMin ++ bvBytes 4 v.bandMax

/-- An ACTIVATE that waited for the handover sends its request to the new Wellhead (R373). -/
def requestGrant (s : State) : State :=
  if s.upd.actReq.isSome && !s.rack.wellhead then
    let s := { s with upd := { s.upd with actAt := s.clk.now } }
    if s.rack.leader = 0 then s else sendMsg s.rack.leader 0x02 (activationData s) s
  else s

/-- PLANNED_HANDOVER: at the boundary the old Wellhead stops, and successor 1, to which its checkpoint names the boundary, takes the role there with
epoch E + 1 (R217). -/
def handOver (s : State) : State :=
  match s.rack.handAt, s.rack.ckpt with
  | some p, _ => if s.rack.wellhead then requestGrant (standDown p s) else s
  | none, some c =>
    match c.boundary with
    | none => s
    | some p =>
      let s' := advanceRing (10000 * p) s
      if !s.rack.wellhead && mayLead s && holdsCkpt s' && c.succ.head? == some (position s) then takeRole (s'.rack.highEpoch + 1) (some c) false s'
      else s
  | none, none => s

/-- PLANNED_HANDOVER (R217). -/
def execPlannedHandover (s : State) : Out := .next (handOver s)

/-- LEASE_EXPIRY: the leader stops issuing and continues as a member (R220). -/
def endLease (s : State) : State :=
  if s.rack.wellhead then
    loseRole (position s) (advanceTo s.rack.leaseUntil s)
  else s

/-- LEASE_EXPIRY (R220). -/
def execLeaseExpiry (s : State) : Out := .next (endLease s)

/-- CHECKPOINT_SEND: every 100 ms (R216). -/
def execCheckpointSend (s : State) : Out :=
  .next (if s.rack.wellhead ∧ onRing s = true then sendCheckpoint none (advanceTo s.rack.ckptAt s) else s)

/-- CHECKPOINT_EXPIRY: 200 ms after its receipt (R216). -/
def execCheckpointExpiry (s : State) : Out :=
  .next (if s.rack.ckpt.isSome then
      let s := advanceTo (s.rack.ckptRecv + ms 200) s
      { s with rack := { s.rack with ckpt := none } }
    else s)

/-- HANDOVER as a state change: BAD_STATE without a successor; BUSY while one is under way (R217). -/
def handoverOp (req : Req) (s : State) : State :=
  runCommand req 0x0708 ⟨.service, true, true, false⟩ (fun s =>
    if s.rack.succ.isEmpty then answer req 0x0708 0x12 [] s
    else if s.rack.handAt.isSome then answer req 0x0708 0x02 [] s
    else
      let s := planHandover (accept req 0x0708 0x01 [] s)
      { s with rack := { s.rack with handover := some req } }) s

/-- HANDOVER (R217). -/
def execHandover (req : Req) (s : State) : Out := .next (handoverOp req s)

end Sys2Proof.Machine
end

