-- ==== Sys2Proof/Machine/Restart.lean ====
section
/-! DEFINITION. Resets and recoveries (03_states_clocks_resets.md, R72 to R79), the erasure of R357, and the trace markers of R398. -/

namespace Sys2Proof.Machine

/-! Trace (R398, Table 18-4) -/

/-- The shore tick of 32.768 kHz that a model time lies in. -/
def shoreTick (now : Nat) : Nat := now * 32768 / 1000000000

/-- FINE: fabric cycles of 5 ns in Run and of 15.625 ns in Watch since that tick; 0 in Still (Table 18-4). -/
def traceFine (s : State) : Nat :=
  let d := s.clk.now - shoreTick s.clk.now * 1000000000 / 32768
  if s.clk.pstate = .run then d / 5 else if s.clk.pstate = .watch then d * 64 / 1000 else 0

/-- One entry of the firmware trace, which holds the last 4,096 (R398). cpu: 0 command processor, 1 loop processor, 2 shore sequencer. -/
def traceMark (kind cpu id data : Nat) (s : State) : State :=
  let e : Trace := ⟨BitVec.ofNat 48 (shoreTick s.clk.now), BitVec.ofNat 16 (min 0xFFFF (traceFine s)), BitVec.ofNat 8 kind, BitVec.ofNat 8 cpu,
    BitVec.ofNat 16 id, BitVec.ofNat 32 data⟩
  { s with cnt := { s.cnt with trace := s.cnt.trace.drop (s.cnt.trace.length - 4095) ++ [e] } }

/-! What the processors lose (Table 3-6, Table 3-9) -/

/-- A mailbox after its queues have been emptied: RESET_SEEN stands and the session is at Monitor (R305, R309). The count of failed
AUTH_RESPONSE goes on (log entry 28). -/
def MailS.emptied (m : MailS) : MailS := { MailS.reset with fails := m.fails, lockUntil := m.lockUntil }

/-- The mailboxes, the local links' buffers and the gates are reset; the interrupt enables are kept (Table 3-9, R317). -/
def emptyHost (s : State) : State :=
  { s with host := { HostS.reset with irqEn := s.host.irqEn, mail := s.host.mail.map MailS.emptied } }

/-- A port keeps its link, but no image to send. -/
def PortS.noImage (q : PortS) : PortS := { q with imageQ := [], nextImage := 0, imageAt := none }

/-- The own frames that wait on a port, or stand suspended there, are lost with the processors' transport; those of other shelves are
forwarded by the control-die logic (R71, Table 3-6). -/
def PortS.dropOwn (own : Nat) (q : PortS) : PortS :=
  { q with waiting := q.waiting.filter fun f => f.src != own, suspended := q.suspended.filter fun p => p.1.src != own }

/-- The ring transport is lost; the link itself, its time and the frames remembered are the hardware's (Table 3-6). -/
def emptyTransport (s : State) : State :=
  let keep := fun (q : PortS) => (q.noImage).dropOwn (position s)
  { s with ring := { Ring.reset with lka := keep s.ring.lka, lkb := keep s.ring.lkb, source := s.ring.source, seen := s.ring.seen, nextT := s.ring.nextT,
                                     rejected := s.ring.rejected } }

/-- What of measurement is of class none (Tables 6-1, 6-3, 6-7; R132): the words, the values the fabric keeps, flags and tests. -/
def Measure.cleared (m : Measure) : Measure :=
  let z := Measure.reset
  { m with
    words := z.words, cellAt := 0, steps := m.steps.map fun r => { r with vIns := none, vByp := none, before := none }
    curWord := 0, src := false, lowRange := false, held := false, heldLeft := 0, clip := false
    disagree := false, disRun := 0, hallFail := false, sumFail := false, sumRun := 0, suspects := [], tapTest := false
    tapRun := none, tapPlan := [], tapOut := [], owtTap := none, compBad := none, extrap := false, means := []
    ntc := m.ntc.map fun n => { n with faulted := false, bad := 0, good := 0 } }

/-- Status flags of class none in the processors' groups return to their reset values (Tables 5-3, 6-7, 9-4). -/
def clearFlags (s : State) : State :=
  { s with
    mod := { s.mod with voltSat := false, limitSat := false, budgetSat := false, hold := false, holdExp := false, intLim := false,
                        pulseSkip := false, phaseSlew := false, trim := none, nextCmd := none, missedRun := 0, missNext := false }
    meas := s.meas.cleared
    chg := { s.chg with cells := s.chg.cells.map fun a => { a with provisional := none } }
    clk := { s.clk with belowWake := none }
    lad := { s.lad with adm := if s.lad.adm == .checking || s.lad.adm == .opening then .out else s.lad.adm, checkLeft := [], checkReq := none, parkMask := 0, parkTag := [],
                        startAbort := false, idleSince := none, quietSince := none } }

/-- Work of the processors that a restart ends (R292, R347, R381); the next step resistance of each level is a first one (R133). -/
def dropWork (s : State) : State :=
  let s := stopCapture s
  { s with
    flt := { s.flt with safe := false, injections := [], sources := s.flt.sources.map fun r => { r with active := false }
                        ctrlWarn := Thresh.reset, ctrlThr := Thresh.reset, ctrlShut := Thresh.reset
                        powWarn := Thresh.reset, powThr := Thresh.reset, powShut := Thresh.reset }
    nv := { s.nv with capture := .idle, capReq := none, compactReq := none, capRing := [], capLeft := 0, owed := JItems.reset, remapDue := [] }
    busA := { BusA.reset with sclStuck := s.busA.sclStuck, sdaStuck := s.busA.sdaStuck }
    dbg := Debug.reset
    chg := { s.chg with attempt := false, attemptDue := false }
    cfg := { s.cfg with commitBusy := false }
    upd := { s.upd with actReq := none }
    cnt := { s.cnt with precise := [], irqs := [] }
    aux := { s.aux with railReq := [], fuses := s.aux.fuses.map fun f => { f with req := [] } }
    clk := { s.clk with localTask := false, lpMissed := 0, cpService := s.clk.now }
    meas := { s.meas with steps := s.meas.steps.map fun r => { r with rAt := none } } }

/-- The engine starts anew: every tile initialises (R72, R182). -/
def startEngine (s : State) : State :=
  initTiles { s with eng := { s.eng with stopped := false, gated := false, throttle := 0, throttleWant := 0, coolSince := none, overrunRun := 0,
                                         overrunAt := none, skipNext := false } }

/-- What every restart of the processors does: running commands, sessions and roles are lost, anchors end and open spans are disqualified
(R75, R162, R165, Table 3-9). The engine steps on through an ACTIVATE, unless it stood gated (R317, R374). -/
def restartProcessors (keepEngine : Bool) (s : State) : State :=
  let gated := s.eng.gated
  let s := disqualifyAll 3 (endAnchors s)
  let s := loseJournalled (dropWork (clearFlags (emptyTransport (emptyHost s))))
  let s := { s with rack := { Rack.reset with shelves := s.rack.shelves, runAt := s.rack.runAt, heardCmd := s.rack.heardCmd } }
  if keepEngine && !gated then s else startEngine s

/-- The counters go on from the shore mirror, with their GAP flags set (R79, R391). -/
def resumeCounters (s : State) : State :=
  { s with cnt := { s.cnt with counters := s.cnt.mirror, hist := s.cnt.mirrorHist, gap := List.replicate 96 true, snapCount := 0 } }

/-! Controller reset and brown-out (R72 to R75, R77) -/

/-- A write of the journal that a reset interrupts: the group is not accepted, whether its copies read as before, as written or as uncorrectable (R338,
Table 15-7). How far the write has come is not stated (log entry 2). -/
def tearWrite (s : State) : State :=
  if s.clk.now < s.nv.writeUntil then
    let p := takeFree s
    let s := p.2
    let d := Config.freeNat p.1 % 4
    let r := activeRegion s
    let torn := fun (g : JGroup) => { g with ok0 := decide (d = 1), ok1 := false }
    if d = 0 then s
    else setActive { r with groups := if d = 2 then r.groups.dropLast else r.groups.modify (r.groups.length - 1) torn } s
  else s

/-- A controller reset: the ladder freezes, the processors, the engine and the mailboxes restart, RST_N is driven low for 20 us, and the
third within 10 s is fatal (R72, R74, R77, Table 12-5). -/
def controllerReset (s : State) : State :=
  let was := hostReady s
  let times := s.clk.now :: s.clk.resetTimes.filter fun t => decide (s.clk.now < t + sec 10)
  let s := count 86 (freezeLadder (resumeCounters (dropTrial (traceMark 6 0 0 0 (tearWrite s)))))
  let s := restartProcessors false s
  let s := { s with clk := { s.clk with inReset := some .controller, resetAt := s.clk.now, resetTimes := times,
                                        rstOwnUntil := some (s.clk.now + us 20) } }
  let s := noteReady was s
  if 3 ≤ times.length then raise 8 .fatal 3 0 s else s

/-- CONTROLLER_RESET: of SYS_RESET, at the pop of its response or 1 ms after its push and after a journal commit under way, or of another trigger of
Table 3-6; not while the control die is unpowered (R72, R77, R332, Table 14-16). -/
def execControllerReset (s : State) : Out :=
  .next (if s.clk.pstate = .run ∨ s.clk.pstate = .watch then
      match s.host.restart with
      | some (false, t) => controllerReset (advanceTo (max t s.nv.writeUntil) s)
      | _ => controllerReset s
    else s)

/-- A watchdog expiry raises FSTAT RESET with its event record and causes a controller reset (R73, Table 12-3). -/
def watchdogReset (ev : Nat) (s : State) : State := controllerReset (raise 8 .contained ev 0 s)

/-- CP_WATCHDOG_EXPIRY: parameter 0x0113 after the last service, which is firmware's own act: it is taken as made last when the processor started, at a
reset, at Watch entry or at a resume from a halt (DESIGN CHOICE, log entry 188); the watchdog pauses while its processor is halted (R73, R400). -/
def execCpWatchdogExpiry (s : State) : Out :=
  .next (if (s.clk.pstate = .run ∨ s.clk.pstate = .watch) ∧ s.dbg.haltedCp = false ∧ s.clk.inReset = none then
      watchdogReset 1 (advanceTo (s.clk.cpService + ms (s.parN 0x0113)) s)
    else s)

/-- One control-period deadline that the loop processor misses (R73). -/
def missDeadline (s : State) : State :=
  let s := advanceRing (instantFrom 10000 0 (s.clk.ring + 1)) s
  { s with clk := { s.clk with lpMissed := s.clk.lpMissed + 1 } }

/-- The deadlines missed one after the other until the fourth (R73). -/
def missDeadlines : Nat → State → State
  | 0, s => s
  | n + 1, s => if 4 ≤ s.clk.lpMissed then s else missDeadlines n (missDeadline s)

/-- LP_WATCHDOG_EXPIRY: 4 consecutive missed control-period deadlines, in Run (R73). -/
def execLpWatchdogExpiry (s : State) : Out :=
  .next (if s.clk.pstate = .run ∧ s.dbg.haltedLp = false ∧ s.clk.inReset = none then watchdogReset 2 (missDeadlines 4 s) else s)

/-- RST_N low from outside (R74): a pulse under 100 ns is ignored, and a low that the SZ716 drives itself starts no new reset; one held past
the SZ716's own release extends the reset until RST_N_RELEASE. In a brown-out the own release is not yet known, and any such low is held
until that row. Where the SZ716 drives nothing, a low of at least 1 us is a reset (Table 3-6). -/
def rstLow (lowNs : Nat) (s : State) : State :=
  if lowNs < 100 then s
  else
    let ends := s.clk.now + lowNs
    if s.clk.rstOwnHold then { s with clk := { s.clk with rstExt := true } }
    else match s.clk.rstOwnUntil.filter fun t => decide (s.clk.now < t) with
      | some t => { s with clk := { s.clk with rstExt := s.clk.rstExt || decide (t < ends) } }
      | none =>
        if lowNs < 1000 then s
        else
          let s := controllerReset s
          { s with clk := { s.clk with rstExt := decide (21000 < lowNs) } }

/-- RST_N_LOW (R72, R74). -/
def execRstNLow (lowNs : Nat) (s : State) : Out := .next (if s.clk.pstate = .run ∨ s.clk.pstate = .watch then rstLow lowNs s else s)

/-- RST_N_RELEASE: the restart goes on from here (R74). -/
def execRstNRelease (s : State) : Out :=
  .next (if s.clk.rstExt then { s with clk := { s.clk with rstExt := false, resetAt := s.clk.now } } else s)

/-- A control-die brown-out: as a controller reset, and the ring ports, the PLL and ring time are lost too; RST_N is held low until the
rails are good (R72, R74, R75, Table 3-9). -/
def brownOut (s : State) : State :=
  let was := hostReady s
  let s := count 87 (freezeLadder (resumeCounters (dropTrial (traceMark 6 0 0 0 (tearWrite s)))))
  let s := restartProcessors false s
  let down := fun (q : PortS) => { PortS.reset with heldDown := q.heldDown }
  let s := { s with
    ring := { s.ring with lka := down s.ring.lka, lkb := down s.ring.lkb, seen := [] }
    host := { s.host with irqEn := HostS.reset.irqEn }
    clk := { s.clk with inReset := some .brownOut, resetAt := s.clk.now, pll := false, timeState := .none, phaseErr := 0, trained := false,
                        railsGood := false, rstOwnHold := true }
    chg := { s.chg with clkRc := true } }
  raise 8 .contained 4 0 (slewRails (noteReady was s))

/-- BROWN_OUT (R72, R75). -/
def execBrownOut (s : State) : Out := .next (if s.clk.pstate = .run ∨ s.clk.pstate = .watch then brownOut s else s)

/-- CONTROL_RAILS_GOOD: VCORE and VIO18 are good, RST_N is released and the restart begins (R74, R77). -/
def execControlRailsGood (s : State) : Out :=
  .next { s with clk := { s.clk with railsGood := true, rstOwnHold := false, resetAt := s.clk.now } }

/-! The erasure of Returned (R357) -/

/-- The counters as they stand just before the erasure: one event record for each present level, with QIN, QOUT, S and B in its DATA (R155,
R357, log entry 158). -/
def recordCounters (s : State) : State :=
  (presentLevels s).foldl (fun st k =>
    let a := acc s k
    eventRecordOf 0xFF 0x25 (k + 1) 0 false (leBytes 8 (a.qin / 65536) ++ leBytes 8 (a.qout / 65536) ++ leInt 8 (wholeLsb s.chg.sNet)
      ++ leInt 8 (wholeLsb s.chg.bNet)) st) s

/-- The customer keys, both journal regions and the model files are erased, and every journal-class value returns to its default (R357). -/
def eraseCustomer (s : State) : State :=
  let noRetire := fun (_ : Nat) (l : Level) => if l.st == .retired then { l with st := .parked, stuckIn := false, cause := 1, insGate := false } else l
  let s := mapLevels noRetire s
  { s with
    key := { s.key with rackKey := none, rackPend := none, packKey := none, opCred := none, svCred := none }
    nv := { s.nv with regA := JRegion.reset, regB := JRegion.reset, activeB := false, empty := true, jseq := 0xFFFFFFFF, compact := none,
                      fileActive := [], fileStaged := [], levels := List.replicate 16 Level.reset, tapOpen := 0 }
    cfg := { CfgS.reset with commitBusy := s.cfg.commitBusy }
    chg := { s.chg with cells := List.replicate 16 CellAcc.reset, sNet := 0, bNet := 0, sat := false, holdupCut := false, packId := 0, bound := false,
                        bindTime := 0 }
    meas := { s.meas with tapOpen := 0, tapRetest := 0, binIn := Measure.reset.binIn, binBy := Measure.reset.binBy
                          steps := s.meas.steps.map fun r => { r with rStep := StepSample.reset.rStep } }
    rack := { s.rack with obeyed := 0, highEpoch := 0, everObeyed := false }
    eng := { s.eng with learned := List.replicate 16 none } }

/-- The erasure of R357, steps 3 and 4. -/
def finishErasure (s : State) : State :=
  let s := eraseCustomer s
  { s with key := { s.key with life := .returned, erasing := false }, clk := { s.clk with notReady := true } }

/-- An entry into Returned that was interrupted after its second step is completed at the next start, before the journal is replayed (R357, Table
16-9). -/
def completeErasure (s : State) : State := if s.key.erasing then finishErasure s else s

/-! Recovery (R77, R101, R126) -/

/-- The ladder goes on from the frozen set at the next period; after a freeze expiry it is parked and needs admission (R101, R102). -/
def resumeLadder (s : State) : State :=
  match s.lad.freezeAt with
  | some t =>
    if s.lad.parkRun == .none then
      let s := histAdd 5 ((s.clk.now - t) / 1000) (mapLevels (fun _ l => { l with frozen := false }) s)
      { s with lad := { s.lad with freezeAt := none } }
    else s
  | none => s

/-- Firmware resumes (R77, R101): the sample streams resume with their gap marker (R71), the journal has been replayed, the queues are ready, the PLL runs, and the ladder goes on. An activation
ends with its version report (R371, Table 16-8). -/
def recover (k : ResetKind) (s : State) : State :=
  let was := hostReady s
  let s := completeErasure s
  let s := if s.clk.replayed then s else replay s
  let s := resumeLadder { s with clk := { s.clk with inReset := none, pll := s.clk.pll || k == .brownOut || k == .powerOn, rstOwnUntil := none } }
  let s := noteReady was { s with upd := { s.upd with activating := false }
                                  meas := { s.meas with gapMark := if k = .powerOn then s.meas.gapMark else some s.meas.discarded, discarded := 0 } }
  if k = .activate then reportVersion s else s

/-- RECOVERY_COMPLETE: not while RST_N is held from outside, or the rails are not good (R74, R77, R101). -/
def execRecoveryComplete (s : State) : Out :=
  .next (match s.clk.inReset with
    | none => s
    | some k => if s.clk.rstExt || s.clk.rstOwnHold then s else recover k s)

/-! Power-on reset (R72, R76, R261) -/

/-- The SEQ of the next record as the recorder finds it at start: the newer valid copy of its pointer, and the records from there on, at most 3 slots
further; with neither copy valid the recorder is empty (R346). -/
def recorderNext (s : State) : BitVec 32 :=
  let newest := fun (a b : Option (BitVec 32)) => match a, b with
    | some x, some y => some (if newer y x then y else x)
    | x, y => x.or y
  match newest (s.nv.recPtr.getD 0 none) (s.nv.recPtr.getD 1 none) with
  | none => 0
  | some p => (List.range 4).foldl (fun q i => if q = p + BitVec.ofNat 32 i ∧ s.nv.recs.any (·.seq == q) then q + 1 else q) p

/-- What power-on reset leaves in MRAM: journal, recorder, cuts, files, slots, keys, images, and the power-cycle count plus 1, saturating
(Table 3-9, Table 15-1); model time, the free values and the commands that wait are the model's own. -/
def coldState (s : State) : State :=
  let z := State.reset
  let keepFuse := fun (f : Efuse) => if f.st == .damaged then { Efuse.reset with st := .damaged } else Efuse.reset
  { z with
    free := s.free, pending := s.pending
    clk := { z.clk with now := s.clk.now, slewAt := s.clk.now, inReset := some .powerOn, resetAt := s.clk.now, cpService := s.clk.now
                        cycles := if s.clk.cycles = 0xFFFFFFFF then 0xFFFFFFFF else s.clk.cycles + 1 }
    meas := { z.meas with trimGain := s.meas.trimGain, trimOff := s.meas.trimOff, tapRetest := s.meas.tapRetest, binSince := s.clk.now }
    chg := { z.chg with sat := s.chg.sat }
    sup := { s.sup with holdup := false, vhold := 0, ceff := 0, faulty := false, latchDue := false }
    nv := { z.nv with regA := s.nv.regA, regB := s.nv.regB, activeB := s.nv.activeB, empty := s.nv.empty, jseq := s.nv.jseq
                      compactions := s.nv.compactions, recs := s.nv.recs, recPtr := s.nv.recPtr, recNext := recorderNext s
                      scrubPage := 0, remap := s.nv.remap, weak := s.nv.weak, cuts := s.nv.cuts
                      fileActive := s.nv.fileActive, fileStaged := s.nv.fileStaged, slot0 := s.nv.slot0, slot1 := s.nv.slot1
                      badPages := s.nv.badPages, levels := s.nv.levels, tapOpen := s.nv.tapOpen }
    key := s.key
    upd := { s.upd with actReq := none, activating := false, trial := s.upd.trial.map fun _ => s.clk.now }
    aux := { z.aux with faults := s.aux.faults, fuses := s.aux.fuses.map keepFuse }
    eng := { z.eng with learned := s.eng.learned }
    cnt := { z.cnt with checkpoint := s.cnt.checkpoint, ckptFresh := s.cnt.ckptFresh } }

/-- The sum of the counters, by which of two sets is the newer (R391). -/
def counterSum (l : List Nat) : Nat := l.foldl (· + ·) 0

/-- The counters after a power-on reset: the checkpoint of the hold-up entry; where none was written, the newer of the last checkpoint and
the newest cut, with GAP (Table 3-9, R391). -/
def coldCounters (s : State) : State :=
  let cut : Option (List Nat × List (List Nat)) := match s.nv.cuts with
    | [] => none
    | c :: cs => some (let m := cs.foldl (fun a b => if newer b.order a.order then b else a) c; (m.counters, m.hist))
  let pick : Option (List Nat × List (List Nat)) := match s.cnt.checkpoint, cut with
    | some a, some b => if s.cnt.ckptFresh || decide (counterSum b.1 ≤ counterSum a.1) then some a else some b
    | some a, none => some a
    | none, b => b
  let v := pick.getD (s.cnt.counters, s.cnt.hist)
  { s with cnt := { s.cnt with counters := v.1, hist := v.2, mirror := v.1, mirrorHist := v.2, gap := List.replicate 96 !s.cnt.ckptFresh,
                               ckptFresh := false } }

/-- Each remapped page is tested; one that passes returns to use and frees its spare (R340). Whether it passes is a property of the cells:
a free value (log entry 138). -/
def testRemapped (s : State) : State :=
  { s with free := s.free + s.nv.remap.length
           nv := { s.nv with remap := (s.nv.remap.zipIdx.filter fun q => Config.freeNat (s.free + q.2) % 2 == 0).map (·.1) } }

/-- A power-on reset: everything restarts but MRAM; an erasure that was interrupted is completed, remapped pages are tested, the active image
is verified, and the default rails start with channel 2 (R72, R76, R261, R340, R357, R375). -/
def powerOn (s : State) : State :=
  let s := testRemapped (coldCounters (coldState s))
  let s := completeErasure s
  startRail 2 false (traceMark 6 2 0 0 (bootImage s))

/-- POWER_ON_RESET (R72, R76). -/
def execPowerOnReset (s : State) : Out := .next (powerOn s)

/-- What not-ready waits for (R76): the journal replayed, the pack authenticated, the links trained with ring time acquired, 2.5 mJ on VHOLD,
and the shelf configured (R5, R14). -/
def readyNow (s : State) : Bool := s.clk.replayed && s.clk.authDone && s.clk.trained && energyOk s && configured s

/-- NOT_READY_CLEAR (R76). -/
def execNotReadyClear (s : State) : Out :=
  .next (if s.clk.notReady ∧ readyNow s ∧ (s.clk.inReset = none ∨ s.clk.inReset = some .powerOn) then
      noteReady (hostReady s) { s with clk := { s.clk with notReady := false, inReset := none } }
    else s)

end Sys2Proof.Machine
end

