-- ==== Sys2Proof/Machine/Clocking.lean ====
section
/-! DEFINITION. Clocks and ring time events (R64 to R68, R76), and the shore mirror (R79). -/

namespace Sys2Proof.Machine

/-- SHORE_CLOCK_TO_CRYSTAL: where the crystal is selected and has not been lost, with no gap (R63, R76). -/
def execShoreClockToCrystal (s : State) : Out :=
  .next (if s.par 0x0112 = 1 ∧ s.clk.shoreLost = false ∧ s.clk.pstate ≠ .off then { s with clk := { s.clk with shoreXtal := true } } else s)

/-- The selected crystal gives no edge: the shore domain moves to the RC, with FSTAT CLOCK and an event record (R64,
Table 12-5). The mark of the loss clears at power-on reset alone (DESIGN CHOICE, log entry 201). -/
def loseShoreCrystal (s : State) : State :=
  if s.clk.shoreXtal then raise 19 .contained 1 0 { s with clk := { s.clk with shoreXtal := false, shoreLost := true } } else s

/-- SHORE_CRYSTAL_LOSS (R64). -/
def execShoreCrystalLoss (s : State) : Out := .next (loseShoreCrystal s)

/-- Loss of the 25 MHz reference is fatal (R65, Table 12-5). -/
def loseReference (s : State) : State :=
  if s.clk.pll then raise 19 .fatal 2 0 (slewRails { s with clk := { s.clk with pll := false }, chg := { s.chg with clkRc := true } }) else s

/-- REFERENCE_LOSS: the 25 MHz crystal runs in Run only (R63, R65). -/
def execReferenceLoss (s : State) : Out := .next (if s.clk.pstate = .run then loseReference s else s)

/-- No valid SYNC for 1 ms: a member keeps its PLL trim and counts ring time on (R66). -/
def enterHoldover (s : State) : State :=
  if s.clk.pstate == .run && !s.rack.wellhead && s.clk.timeState == .synced then
    let s := advanceTo (s.clk.lastSync + ms 1) s
    { s with clk := { s.clk with timeState := .holdover } }
  else s

/-- HOLDOVER_ENTRY (R66). -/
def execHoldoverEntry (s : State) : Out := .next (enterHoldover s)

/-- After 1 s of holdover ring time is declared lost, with its event record and report; open spans are disqualified, and the regulators
leave their reference (R66, R260, Table 7-4). -/
def loseTime (s : State) : State :=
  if s.clk.timeState == .holdover then
    let s := advanceTo (s.clk.lastSync + ms 1 + sec 1) s
    let s := slewRails (disqualifyAll 3 { s with clk := { s.clk with timeState := .lost, tsyncUntil := none } })
    sendStatus true (plainEvent 0x22 0 s)
  else s

/-- TIME_LOST (R66). -/
def execTimeLost (s : State) : Out := .next (loseTime s)

/-- TSYNC rises at the next whole millisecond of ring time and stays high for 10 us; it stays low outside Run and while ring time is lost or
unknown (R68). -/
def pulseTsync (s : State) : State :=
  if s.clk.pstate == .run && s.clk.ringKnown && s.clk.timeState != .lost then
    let s := advanceRing (instantFrom (ms 1) 0 (s.clk.ring + 1)) s
    { s with clk := { s.clk with tsyncUntil := some (s.clk.now + us 10) } }
  else s

/-- TSYNC_PULSE (R68). -/
def execTsyncPulse (s : State) : Out := .next (pulseTsync s)

/-- The shore mirror takes the counters (R79). -/
def refreshMirror (s : State) : State := { s with cnt := { s.cnt with mirror := s.cnt.counters, mirrorHist := s.cnt.hist } }

/-- SHORE_MIRROR_REFRESH: every 1 ms while the counters run (R79). -/
def execShoreMirrorRefresh (s : State) : Out :=
  .next (if s.clk.pstate = .run ∨ s.clk.pstate = .watch then refreshMirror (advanceTo (instantFrom (ms 1) 0 (s.clk.now + 1)) s) else s)

end Sys2Proof.Machine
end

