-- ==== Sys2Proof/Machine/Supply.lean ====
section
/-! DEFINITION. Supplies and the hold-up store (02_package_and_supplies.md, R34 to R46), and hold-up (R43, R44, R103, R156). -/

namespace Sys2Proof.Machine

/-- SUPPLY_SWITCHOVER: counted and recorded; it is no reset, no fault, and nothing stops (R37, R38). -/
def execSupplySwitchover (input : Carry) (s : State) : Out :=
  .next (if s.sup.carry = input ∨ s.clk.pstate = .off then s
    else plainEvent 0x23 0 (count 85 { s with sup := { s.sup with carry := input } }))

/-- The operating band of the higher input: 1 below 9 V, 2 above 60 V (R34, Table 13-4). -/
def bandOf (mv : Nat) : BitVec 2 := if mv < 9000 then 1 else if 60000 < mv then 2 else 0

/-- The new band; above 60 V the regulators are capped at 1 MHz at once (R34, R260). -/
def takeBand (vmain vaux : Nat) (s : State) : State :=
  let s := { s with sup := { s.sup with vmain := vmain, vaux := vaux, vor := max vmain vaux, band := bandOf (max vmain vaux) } }
  let cap := fun (x : Nat) (r : Rail) =>
    { r with fsw := if s.sup.band = 2 then min r.fsw 1000 else r.fsw, freqCap := s.sup.band == 2 && decide (1000 < 100 * railPar s x 0) }
  { s with aux := { s.aux with rails := mapLvl s.aux.rails cap } }

/-- SUPPLY_BAND_CHANGE: above 65 V the behaviour is not defined (R12, Table 0-2). -/
def execSupplyBandChange (vmainMv vauxMv : Nat) (s : State) : Out :=
  if 65000 < max vmainMv vauxMv then .fault .outsideEnvironment else .next (takeBand vmainMv vauxMv s)

/-! The hold-up store (R41, R42, R46) -/

/-- A charge of VHOLD completes: the effective capacitance in nF from the charge time at known current, at the first charge and after one
from below 12 V (R42). A charge from below 1 V within 400 ms ends a store's being taken as faulty; one beyond it is faulty (R46). -/
def chargeDone (fromMv toMv chargeNs chargeUa : Nat) (s : State) : State :=
  let measure := decide (fromMv < toMv) && (s.sup.ceff == 0 || decide (fromMv < 12000))
  let c := if measure then chargeUa * chargeNs / (toMv - fromMv) / 1000 else s.sup.ceff
  let full := decide (13800 ≤ toMv)
  let bad := if decide (ms 400 < chargeNs) then true else s.sup.faulty && !(decide (fromMv < 1000) && full)
  { s with sup := { s.sup with vhold := toMv, ceff := c, faulty := bad } }

/-- VHOLD_CHARGED: the charger runs from VOR, not in hold-up (R41, R42). -/
def execVholdCharged (fromMv toMv chargeNs chargeUa : Nat) (s : State) : Out :=
  .next (if s.sup.holdup ∨ s.clk.pstate = .off then s else chargeDone fromMv toMv chargeNs chargeUa s)

/-- VHOLD_CHARGE_TIMEOUT (R46). -/
def execVholdChargeTimeout (s : State) : Out :=
  .next (if s.sup.holdup ∨ s.clk.pstate = .off then s else { s with sup := { s.sup with faulty := true } })

/-! Hold-up (R43, R44, R103, R156) -/

/-- Sheds one eFuse channel at hold-up entry, with cause 0x9 (R43, Table 11-9). -/
def holdShedFuse (s : State) (x : Nat) : State :=
  let f := fuseOf s x
  if f.isOn || f.st == .preCheck then
    let s := answerFuse x (seqRecord 0x6 (fuseCode x) (modFuse x (Efuse.off 0x9) s))
    { s with aux := { s.aux with shed := if s.aux.shed.contains (fuseCode x) then s.aux.shed else s.aux.shed ++ [fuseCode x] } }
  else s

/-- Channel 3 and eFuse channels 1 to 4 and 6 turn off at once; an ordered shutdown or a start is abandoned (R43, R276). -/
def holdShed (s : State) : State :=
  let s := [0, 1, 2, 3, 5].foldl holdShedFuse s
  let r := railOf s 3
  let s := if r.st == .off || r.st == .latchedOff then s
    else
      let s := answerRail (dropDependants (seqRecord 0x6 0x03 (dropRail 3 0 s)))
      { s with aux := { s.aux with fltShed := s.aux.fltShed.filter (· != 0x03), shed := if s.aux.shed.contains 0x03 then s.aux.shed else s.aux.shed ++ [0x03] } }
  { s with aux := { s.aux with seqRun := if s.aux.seqRun == .idle then .idle else .ended, leadDue := none, seqPaused := false, seqWait := false } }

/-- What hold-up entry writes while a write could still begin: the recorder's waiting records, cuts and last-fault records, and the counters'
checkpoint (R43, R286, R391). -/
def holdFlush (can : Bool) (s : State) : State :=
  if can then
    let s := writeCuts (writeFaults (writeWaiting s))
    { s with cnt := { s.cnt with checkpoint := some (s.cnt.counters, s.cnt.hist), ckptFresh := true } }
  else s

/-- Hold-up entry (R43): the guard parks the ladder and closes the shelf bypass switch, channels are shed, a capture is cut, a compaction
before its step 4 is abandoned, writes that wait are flushed, and STATUS reports it (R103, R347, R351). -/
def enterHoldup (s : State) : State :=
  let can := canWrite s
  let s := count 88 s
  let s := { s with sup := { s.sup with holdup := true, latchDue := true } }
  let s := holdShed (parkAndClose 0x8 (endAnchors (yieldRole s)))
  let s := raise 9 .contained 1 0 s
  let s := if s.nv.capture == .running then endCapture true s else s
  let s := holdFlush can s
  let s := { s with nv := { s.nv with compact := s.nv.compact.filter fun p => decide (4 < p.1) } }
  sendStatus true s

/-- HOLDUP_ENTRY: in every powered state (R39, R43). -/
def execHoldupEntry (s : State) : Out := .next (if s.sup.holdup ∨ s.clk.pstate = .off then s else enterHoldup s)

/-- Once every level is sensed bypassed, the integrator latches the counters into the final counter record, which is written where the
flush may write (R156, R286, R342). A level retired stuck-in is not waited for (DESIGN CHOICE, log entry 162). Between a reset of the control die and
its replay the power die's counters alone are written; before the first replay since power-on reset they lie above counts that the journal
still holds, and none are (R10, R11; log entry 189). -/
def latchFinal (s : State) : State :=
  if s.sup.holdup && s.sup.latchDue && (presentLevels s).all fun k => (lvl s k).sensedOut || (lvl s k).isStuckIn then
    let s := { s with sup := { s.sup with latchDue := false }, chg := { s.chg with latched := true } }
    let i := counterGroup true s
    if s.clk.coldPending || !s.cnt.ckptFresh then s
    else writeGroup 0x3 (if s.clk.replayed then i else { i with accounts := none }) s
  else s

/-- FINAL_COUNTER_LATCH (R156). -/
def execFinalCounterLatch (s : State) : Out := .next (latchFinal s)

/-- Hold-up ends with no reset: the shed channels start in list order, counting goes on from the latched values, compaction may start
again, and the ladder stays parked until the Wellhead's next command admits the shelf: an ADMIT from before does not (R44, R156, R351). -/
def leaveHoldup (s : State) : State :=
  let s := { s with sup := { s.sup with holdup := false, latchDue := false }, chg := { s.chg with latched := false, lastI := none }
                    cnt := { s.cnt with ckptFresh := false }, mod := { s.mod with eAdmit := false } }
  let s := if (railOf s 2).startAt.isSome then startRail 2 false s else s
  sendStatus true (startCompaction (startShed s))

/-- HOLDUP_EXIT (R44). -/
def execHoldupExit (s : State) : Out := .next (if s.sup.holdup ∧ s.clk.pstate ≠ .off then leaveHoldup s else s)

/-- VHOLD has fallen to 6 V: the internal supply drops, and every gate and the shelf bypass switch fall to their pull-downs (R40, R43). -/
def collapse (s : State) : State :=
  let s := mapLevels (fun _ l => { l with insGate := false, bypGate := false, bsOk := false }) s
  { s with
    lad := { s.lad with sby := false, supplies := false, freezeAt := none, parkRun := .none }
    sup := { s.sup with vhold := 6000 }
    ring := { s.ring with lka := s.ring.lka.goDown, lkb := s.ring.lkb.goDown }
    aux := { s.aux with rails := s.aux.rails.map (fun r => { Rail.reset with vset := r.vset, fsw := r.fsw })
                        fuses := s.aux.fuses.map fun f => Efuse.off 0 f }
    clk := { s.clk with pstate := .off, pll := false, notReady := true, tsyncUntil := none }
    chg := { s.chg with lastI := none, heldTins := [] } }

/-- HOLDUP_COLLAPSE (R43). -/
def execHoldupCollapse (s : State) : Out := .next (if s.sup.holdup ∧ s.clk.pstate ≠ .off then collapse s else s)

end Sys2Proof.Machine
end

