-- ==== Sys2Proof/Machine/Sleep.lean ====
section
/-! DEFINITION. Rack sleep, Still, and waking (03_states_clocks_resets.md, R51 to R62; R251). -/

namespace Sys2Proof.Machine

/-! SLEEP frames (Table 10-5) -/

/-- The body of a SLEEP frame: KIND 1 request, 2 yes, 3 no, 4 veto, 5 commit, 6 abort; SHELF is 0 from the Wellhead. -/
def sleepBody (epoch vote : BitVec 32) (tc kind shelf : Nat) : List Byte :=
  bvBytes 4 epoch ++ bvBytes 4 vote ++ leBytes 8 tc ++ leBytes 1 kind ++ leBytes 1 shelf ++ [0, 0]

/-- The Wellhead floods a SLEEP frame. -/
def floodSleep (kind tc : Nat) (s : State) : State :=
  floodBody 7 (sleepBody s.rack.epoch s.rack.voteNo tc kind 0) s

/-- A member sends a SLEEP frame to the Wellhead (R241). -/
def voteSleep (vote : BitVec 32) (kind : Nat) (s : State) : State :=
  route (wellheadPort s) 7 (sleepBody s.rack.obeyed vote 0 kind (position s)) s

/-! Votes (R57 to R60) -/

/-- A shelf votes yes only in Run, with no wake request, with the string current below the wake threshold for 1 s, and with no journal
commit, recorder flush or image transfer in progress (R58). -/
def mayVoteYes (s : State) : Bool :=
  s.clk.pstate == .run && !s.clk.wakeLatch && decide (s.clk.wakeActive ≤ s.clk.now) && (s.clk.belowWake.any fun t => since s t (sec 1)) && s.nv.buffer.isEmpty
  && decide (s.nv.writeUntil ≤ s.clk.now) && s.nv.compact.isNone && !s.ring.relaying && s.ring.lka.imageQ.isEmpty && s.ring.lkb.imageQ.isEmpty

/-- The vote ends without a sleep: the Wellhead says so, and RACK_SLEEP is answered BAD_STATE with the shelf that barred it (R58, R59,
Table 14-8). -/
def abortVote (shelf : Nat) (s : State) : State :=
  let s := floodSleep 6 0 s
  finishOpt s.rack.voteReq 0x12 (leBytes 1 shelf) { s with rack := { s.rack with voting := false, voteReq := none, voteYes := [] } }

/-- Every in-service shelf has voted yes: the commit goes out for 3 ms later (R58). -/
def commitSleep (s : State) : State :=
  let tc := s.clk.ring + ms 3
  let s := floodSleep 5 tc s
  finishOpt s.rack.voteReq 0x00 (leBytes 8 tc)
    { s with rack := { s.rack with voting := false, voteReq := none, voteYes := [], sleepAt := some tc } }

/-- The Wellhead counts a vote of a shelf (R58). -/
def countVote (h : Nat) (yes : Bool) (s : State) : State :=
  if !s.rack.voting then s
  else if !yes then abortVote h s
  else
    let s := { s with rack := { s.rack with voteYes := (h :: s.rack.voteYes).eraseDups } }
    if (serviceShelves s).all s.rack.voteYes.contains then commitSleep s else s

/-- The rack contactor may be fed (R57). -/
def mayBeFed (s : State) : Bool := s.rack.contactor || (serviceShelves s).any fun h => (row s h).flag 2

/-- RACK_SLEEP as a state change (R57, Table 9-10, Table 14-8, Table 14-12). -/
def rackSleepOp (req : Req) (s : State) : State :=
  runChecked req 0x0705 ⟨.operator, true, true, false⟩ true true (fun s =>
    if s.rack.voting || s.rack.sleepAt.isSome || s.rack.staging || s.rack.staged || s.cfg.hasPending || s.ring.relaying then
      answer req 0x0705 0x02 [] s
    else if mayBeFed s || s.rack.busHu || !since s s.rack.takeoverAt (sec 1) then answer req 0x0705 0x12 [] s
    else
      let s := accept req 0x0705 0x01 [] s
      let s := { s with rack := { s.rack with voteNo := s.rack.voteNo + 1, voting := true, voteDue := s.clk.now + ms 2, voteYes := [],
                                              voteReq := some req } }
      let s := floodSleep 1 0 s
      countVote (position s) (mayVoteYes s) s) s

/-- RACK_SLEEP (R57, R58). -/
def execRackSleep (req : Req) (s : State) : Out := .next (rackSleepOp req s)

/-- A member takes a SLEEP frame of the Wellhead: it votes, takes the commit, or forgets its vote (R58, R59). -/
def memberSleep (b : List Byte) (s : State) : State :=
  let vote := BitVec.ofNat 32 (fieldAt b 4 4)
  let kind := fieldAt b 16 1
  if kind = 1 then
    if mayVoteYes s then voteSleep vote 2 { s with rack := { s.rack with votedYes := some vote } } else voteSleep vote 3 s
  else if kind = 5 then { s with rack := { s.rack with sleepAt := some (fieldAt b 8 8), votedYes := none } }
  else if kind = 6 then { s with rack := { s.rack with votedYes := none } }
  else s

/-- The Wellhead takes a SLEEP frame of a member: a vote, or a veto, which is latched after the commit (R58 to R60). -/
def wellheadSleep (b : List Byte) (s : State) : State :=
  let kind := fieldAt b 16 1
  let h := fieldAt b 17 1
  if BitVec.ofNat 32 (fieldAt b 4 4) ≠ s.rack.voteNo then s
  else if kind = 2 then countVote h true s
  else if kind = 3 then countVote h false s
  else if kind = 4 then (if s.rack.sleepAt.isSome then { s with clk := { s.clk with wakeLatch := true } } else countVote h false s)
  else s

/-- A SLEEP frame that is taken: those of members at the Wellhead, those of the Wellhead at members (R241). -/
def applySleep (f : Frame) (s : State) : State :=
  if s.rack.wellhead then (if fieldAt f.body 17 1 = 0 then s else wellheadSleep f.body s)
  else if fieldAt f.body 17 1 = 0 then memberSleep f.body s
  else s

/-- SLEEP_FRAME_RECEIVED (R58, R59). -/
def execSleepFrameReceived (port : Port) (frame : Frame) (s : State) : Out :=
  .next (if frame.ftype = 7 then takeFrame port frame (applySleep frame) s else s)

/-- A shelf that has not voted within 2 ms counts as voting no (R58). -/
def voteTimeout (s : State) : State :=
  if s.rack.voting then
    let s := advanceTo s.rack.voteDue s
    countVote (((serviceShelves s).find? fun h => !s.rack.voteYes.contains h).getD 0) false s
  else s

/-- SLEEP_VOTE_TIMEOUT (R58). -/
def execSleepVoteTimeout (s : State) : Out := .next (voteTimeout s)

/-- A wake request in Run, whose source stays active for so long: latched after the commit, a veto before it; before any vote the active source
alone bars a yes (R58 to R60). -/
def wakeInRun (activeNs : Nat) (s : State) : State :=
  let s := { s with clk := { s.clk with wakeActive := max s.clk.wakeActive (s.clk.now + activeNs) } }
  if s.rack.sleepAt.isSome then { s with clk := { s.clk with wakeLatch := true } }
  else if s.rack.wellhead && s.rack.voting then abortVote (position s) s
  else match s.rack.votedYes with
    | some v => voteSleep v 4 { s with rack := { s.rack with votedYes := none } }
    | none => s

/-- SLEEP_VETO (R59, R60). -/
def execSleepVeto (activeNs : Nat) (s : State) : Out := .next (if s.clk.pstate = .run then wakeInRun activeNs s else s)

/-! Still (R51, R58, R60, Table 3-9) -/

/-- The learned step resistances and switch bins, which no command commits: they go to the journal at Still entry (R58, R133, R145; DESIGN
CHOICE, log entry 161). -/
def stillItems (s : State) : JItems :=
  { JItems.reset with stepRs := some (s.meas.steps.map (·.rStep)), bins := some (s.meas.binIn, s.meas.binBy) }

/-- Commits a group where a write may begin and there is room (R286, R351). -/
def commitIfRoom (kind : BitVec 8) (items : JItems) (s : State) : State := if mayCommit s items then writeBehind kind items s else s

/-- What Run leaves behind in Still: queues, status flags, links, the PLL, ring time's source and the work under way (Table 3-9). -/
def stillState (s : State) : State :=
  let s := clearFlags (emptyHost (emptyTransport (stopCapture s)))
  { s with
    lad := { s.lad with sby := false }
    nv := { s.nv with capture := .idle, capReq := none, compactReq := none, capRing := [], capLeft := 0 }
    busA := { BusA.reset with sclStuck := s.busA.sclStuck, sdaStuck := s.busA.sdaStuck }
    dbg := Debug.reset
    ring := { s.ring with lka := PortS.goDown s.ring.lka, lkb := PortS.goDown s.ring.lkb }
    rack := { s.rack with voting := false, votedYes := none, sleepAt := none, voteReq := none, stageReq := none, commitReq := none,
                          handover := none, handAt := none, rebase := true, roster := [] }
    chg := { s.chg with lastI := none, heldTins := [], attempt := false, attemptDue := false }
    eng := { s.eng with gated := false, tiles := s.eng.tiles.map fun t => { t with stepping := false } }
    upd := { s.upd with actReq := none, trialRun := s.upd.trialRun + ((s.upd.trial.map fun t => s.clk.now - t).getD 0) }
    cfg := { s.cfg with commitBusy := false }
    aux := { s.aux with railReq := [], fuses := s.aux.fuses.map fun f => { f with req := [] } }
    clk := { s.clk with pstate := .still, pll := false, timeState := .none, phaseErr := 0, trained := false, tsyncUntil := none, firstSyncDue := true,
                        dwellUntil := s.clk.now + ms 1, shoreReports := [], coarseOn := false, belowWake := none, wakeKind := .none, localTask := false
                        wakeTimerAt := if s.par 0x0111 = 0 then none else some (s.clk.now + sec (s.parN 0x0111)) } }

/-- At T(c) the shelf has its journal committed, parks its ladder with cause 0xA, begins the ordered shutdown and enters Still
(R58, R264, Table 3-1, Table 4-3). -/
def enterStill (tc : Nat) (s : State) : State :=
  let s := disqualifyAll 3 (endAnchors (advanceRing tc s))
  let s := commitIfRoom 0x2 (counterGroup false s) (commitIfRoom 0x1 (stillItems s) (payOwed s))
  let s := beginShutdown (parkAll 0xA s)
  traceMark 4 2 0 0 (refreshMirror (stillState s))

/-- STILL_ENTRY: Run leads to Still only by rack sleep commit (R52). -/
def execStillEntry (s : State) : Out :=
  .next (match s.rack.sleepAt with
    | some tc => if s.clk.pstate = .run then enterStill tc s else s
    | none => s)

/-! Waking (R52 to R55, R251, Table 3-2) -/

/-- The wake tone goes out on both ports for 200 us, and tones are ignored for the next 2 ms (R54, R251). -/
def sendTone (s : State) : State :=
  { s with clk := { s.clk with wakeKind := .rackWake, toneUntil := some (s.clk.now + us 200), toneDeaf := s.clk.now + ms 2, wakeOutUntil := some (s.clk.now + ms 1) } }

/-- What of class none returns to its reset value at Still exit, beside what Still entry has ended (Table 3-9). -/
def endStillWork (s : State) : State :=
  { s with
    flt := { s.flt with safe := false, injections := [], sources := s.flt.sources.map fun r => { r with active := false } }
    eng := { s.eng with throttle := 0, throttleWant := 0, coolSince := none, overrunRun := 0, overrunAt := none, skipNext := false, stopped := false
                        tiles := s.eng.tiles.map fun t => { t with warmup := false, collapse := false, overSince := none } }
    nv := { s.nv with owed := JItems.reset, remapDue := [] }
    cnt := { s.cnt with precise := [], irqs := [] }
    meas := { s.meas with steps := s.meas.steps.map fun r => { r with rAt := none }, binSince := s.clk.now } }

/-- Still leads to Watch: the journal class returns to its reset value and is restored by a replay (Table 3-9), channel 2 leaves burst mode, channels 0 and 1 start with the short wake check, and the counters of the shore
domain go on (R52, R54, R256, R261). -/
def enterWatch (s : State) : State :=
  let s := loseJournalled (endStillWork s)
  let s := { s with clk := { s.clk with pstate := .watch, wakeLatch := false, cpService := s.clk.now }, aux := { s.aux with seqRun := .idle, seqPos := 0, seqWait := false, leadDue := none } }
  let s := modRail 2 (fun r => { r with st := if r.st == .burst then .regulating else r.st }) s
  let off := fun (x : Nat) => modRail x fun r => { r with st := if r.st == .shuttingDown then .off else r.st }
  let s := off 0 (off 1 (off 3 s))
  let wake := fun (x : Nat) (s : State) => if (railOf s x).st == .off && (railOf s 2).st == .regulating then startRail x true s else s
  count 89 (traceMark 5 2 0 0 (replay (completeErasure (wake 1 (wake 0 s)))))

/-- A rack wake: in Still to Watch with the tone; in Watch a local wake becomes a rack wake (R53, R54). A wake source in Watch after power-on, where no
wake from Still has come, is taken as one too, with the tone (DESIGN CHOICE, log entry 190). -/
def rackWake (s : State) : State :=
  if s.clk.pstate = .still then sendTone (enterWatch s)
  else if s.clk.pstate = .watch && s.clk.wakeKind != .rackWake then sendTone s
  else s

/-- A wake request of the shelf's own: vetoes or is latched in Run, waits for the dwell in Still, and wakes otherwise (R53, R59, R60). -/
def ownWake (activeNs : Nat) (s : State) : State :=
  if s.clk.pstate = .run then wakeInRun activeNs s
  else if s.clk.pstate = .still && decide (s.clk.now < s.clk.dwellUntil) then { s with clk := { s.clk with wakeLatch := true } }
  else rackWake s

/-- The wake threshold in mA (R53, parameter 0x0110 in 0.1 A). -/
def wakeMa (s : State) : Nat := 100 * s.parN 0x0110

/-- The coarse integrator has started at the first crossing of the threshold: q is the charge it gathers from then until hardware fine integration
starts, in A s, and i its current reading (R55; log entry 25). -/
def startCoarse (i q : Rat) (s : State) : State :=
  if s.clk.pstate = .still && !s.clk.coarseOn then
    { s with clk := { s.clk with coarseOn := true }, chg := { s.chg with coarseQ := q, coarseI := i, coarseAt := s.clk.now } }
  else s

/-- WAKE_CURRENT: the magnitude has stood above the threshold for 20 us; so many nA s flow from its first crossing until fine integration (R53,
R55). -/
def execWakeCurrent (currentMa chargeNas : Int) (s : State) : Out :=
  .next (if currentMa.natAbs ≤ wakeMa s then s else ownWake 0 (startCoarse ((currentMa : Rat) / 1000) ((chargeNas : Rat) / 1000000000) s))

/-- WAKE_TONE_DETECTED: relayed on both ports, unless this node has sent the tone within the last 2 ms (R54, R251). -/
def execWakeToneDetected (_port : Port) (s : State) : Out :=
  .next (if (s.clk.pstate = .still ∨ s.clk.pstate = .watch) ∧ s.clk.toneDeaf ≤ s.clk.now then rackWake s else s)

/-- WAKE_IN, with how long it is held low from here (R53, R58). -/
def execWakeIn (lowNs : Nat) (s : State) : Out := .next (ownWake lowNs s)

/-- WAKE_TIMER_EXPIRY: a local wake (R53). -/
def wakeByTimer (s : State) : State :=
  match s.clk.wakeTimerAt with
  | none => s
  | some t =>
    if s.clk.pstate != .still then s
    else
      let s := enterWatch (advanceTo t s)
      { s with clk := { s.clk with wakeTimerAt := none, wakeKind := .localWake, localTask := true } }

/-- WAKE_TIMER_EXPIRY (R53). -/
def execWakeTimerExpiry (s : State) : Out := .next (wakeByTimer s)

/-- STILL_DWELL_END: a latched wake request wakes the rack 1 ms after the entry (R60). -/
def execStillDwellEnd (s : State) : Out :=
  .next (if s.clk.pstate = .still ∧ s.clk.wakeLatch = true then rackWake (advanceTo s.clk.dwellUntil s) else s)

/-- A 10 s cell scan in Still: VHOLD is topped up to 14 V below 13 V in chargeNs at chargeUa, which measures the capacitance when it was below
12 V, and a cell outside the guard limits wakes the rack (R41, R42, R53). -/
def scanCells (outside : BitVec 16) (vholdMv chargeNs chargeUa : Nat) (s : State) : State :=
  let s := if vholdMv < 13000 then chargeDone vholdMv 14000 chargeNs chargeUa s else { s with sup := { s.sup with vhold := vholdMv } }
  if (presentLevels s).any fun k => outside.getLsbD k then ownWake 0 s else s

/-- CELL_SCAN (R41, R42, R53). -/
def execCellScan (outside : BitVec 16) (vholdMv chargeNs chargeUa : Nat) (s : State) : Out :=
  .next (if s.clk.pstate = .still then scanCells outside vholdMv chargeNs chargeUa s else s)

/-- WATCH_TO_STILL: the counters and the other journal items are committed as at every Still entry (R157); only after a local wake, its task done (log entry 1) and no other wake source active (R52, R53). -/
def backToStill (s : State) : State :=
  if s.clk.pstate == .watch && s.clk.wakeKind == .localWake && !s.clk.wakeLatch then
    let s := commitIfRoom 0x2 (counterGroup false s) (commitIfRoom 0x1 (stillItems s) (payOwed s))
    traceMark 4 2 0 0 (refreshMirror (stillState (beginShutdown s)))
  else s

/-- WATCH_TO_STILL (R52, R53). -/
def execWatchToStill (s : State) : Out := .next (backToStill s)

/-! Watch to Run (R52, R56, R62) -/

/-- The crystal runs, the PLL is locked and a link is trained: the shelf enters Run, the journal replayed before. The engine initialises, a pending rack key is taken
(R360), the periodic work begins, and the shelf reports its version (R56, R157, R182, R346, R371). -/
def enterRun (s : State) : State :=
  let s := if s.clk.replayed then s else replay s
  let s := { s with
    clk := { s.clk with pstate := .run, pll := true, wakeKind := .none, toneUntil := none, belowWake := none }
    rack := { s.rack with runAt := s.clk.now, lost := false, leaseUntil := s.clk.now + us 1600, rebase := true, roster := [] }
    key := { s.key with rackKey := s.key.rackPend.or s.key.rackKey, rackPend := none }
    chg := { s.chg with commitAt := s.clk.now + sec 10 }
    nv := { s.nv with snapAt := s.clk.now + sec (s.parN 0x0901) }
    eng := { s.eng with learnedAt := s.clk.now + sec 3600 }
    upd := { s.upd with trial := s.upd.trial.map fun _ => s.clk.now }
    mod := { s.mod with period := s.clk.ring / 10000, missedRun := 0 } }
  reportVersion (timeMark (slewRails (initTiles s)))

/-- WATCH_TO_RUN: with a link up, after a rack wake or from power-on (R52, R56). A shelf that is not configured waits for the rack's own Run
transition, which a held ring time shows (log entry 144). -/
def toRun (s : State) : State :=
  let up := s.ring.lka.state == .up || s.ring.lkb.state == .up
  let mayRun := configured s || s.clk.timeState == .synced
  if s.clk.pstate == .watch && s.clk.wakeKind != .localWake && up && mayRun && (s.clk.inReset.isNone || s.clk.inReset == some .powerOn) then enterRun s else s

/-- WATCH_TO_RUN (R56). -/
def execWatchToRun (s : State) : Out := .next (toRun s)

/-- After a rack wake the Wellhead waits for STATUS of every in-service shelf; its first SYNC carries a ring time 1 ms later than the highest
shore-held ring time reported (R62). -/
def firstSync (s : State) : State :=
  let heard := fun (h : Nat) => h == position s || s.clk.shoreReports.any (·.1 == h)
  if onRing s && s.rack.wellhead && s.clk.firstSyncDue && (serviceShelves s).all heard then
    let t := (s.clk.shoreReports.map (·.2)).foldl max (highTime s) + ms 1
    let s := stepRing t s
    let s := timeMark { s with clk := { s.clk with ringKnown := true, timeState := .synced, firstSyncDue := false, shoreReports := [] } }
    emitSync .lkb (emitSync .lka s)
  else s

/-- FIRST_SYNC_AFTER_WAKE (R62). -/
def execFirstSyncAfterWake (s : State) : Out := .next (firstSync s)

end Sys2Proof.Machine
end

