-- ==== Sys2Proof/Machine/ImageCmd.lean ====
section
/-! DEFINITION. Patch images: the update commands but for ACTIVATE (R331, R369), and the image relay (R250). -/

namespace Sys2Proof.Machine

/-- An activation is under way at this shelf: its grant is awaited, or its restart follows (R373). -/
def activationRuns (s : State) : Bool := s.upd.actReq.isSome || s.upd.activating || s.host.restart.any (·.1)

/-- A rack stage waits or is pending (R24, Table 14-16). -/
def stagePends (s : State) : Bool := s.rack.staging || s.rack.staged || s.cfg.hasPending

/-- A page of the inactive slot counts as held once its last byte is written. -/
def pagesEnded (o n : Nat) : List Nat := ((List.range (n / 256 + 1)).map (o / 256 + ·)).filter fun i => decide (o < 256 * (i + 1) ∧ 256 * (i + 1) ≤ o + n)

/-- IMAGE_WRITE as a state change (Table 14-12): a write makes the slot partly written. -/
def imageWriteOp (req : Req) (offset : BitVec 32) (data : List Byte) (s : State) : State :=
  runChecked req 0x0B01 (.atLevel .service) (decide (8 ≤ data.length ∧ data.length ≤ 232) && data.length % 8 == 0) true (fun s =>
    let o := offset.toNat
    if o % 8 ≠ 0 ∨ 0x80000 < o + data.length then answer req 0x0B01 0x11 [] s
    else if s.ring.relaying || activationRuns s || stagePends s then answer req 0x0B01 0x02 [] s
    else match nvRefusal s with
      | some c => answer req 0x0B01 c [] (journalRefused (count 73 s))
      | none =>
        let s := writeSlot o data s
        let s := { s with upd := { s.upd with img := .partly, chunks := (pagesEnded o data.length ++ s.upd.chunks).eraseDups } }
        answer req 0x0B01 0x00 [] s) s

/-- IMAGE_WRITE (R331). -/
def execImageWrite (req : Req) (offset : BitVec 32) (data : List Byte) (s : State) : Out := .next (imageWriteOp req offset data s)

/-- The fields of IMAGE_VERIFY (Table 14-12). -/
def verifyFields (s : State) : List Byte :=
  let v := s.upd.imgInfo
  bvBytes 4 v.version ++ bvBytes 2 v.proto ++ bvBytes 4 v.bandMin ++ bvBytes 4 v.bandMax ++ bvBytes 4 s.upd.imgDigest

/-- IMAGE_VERIFY as a state change: BAD_STATE for an empty slot, REFUSED for an image that fails (R369, Table 14-12). -/
def imageVerifyOp (req : Req) (s : State) : State :=
  runCommand req 0x0B02 (.atLevel .service) (fun s =>
    if s.upd.img = .empty then answer req 0x0B02 0x12 [] s
    else
      let s := verifyInactive s
      if s.upd.img = .verified then finish req 0x00 (verifyFields s) (accept req 0x0B02 0x01 [] s) else refuse req 0x0B02 .image s) s

/-- IMAGE_VERIFY (R369). -/
def execImageVerify (req : Req) (s : State) : Out := .next (imageVerifyOp req s)

/-- The relay begins at its source: it holds the image, and both ports send from chunk 0 (R250). -/
def beginRelay (req : Req) (s : State) : State :=
  let s := { s with rack := { s.rack with rows := s.rack.rows.map fun r => { r with held := false } } }
  let s := modRow (position s) (fun r => { r with held := true }) s
  let start := fun (q : PortS) => { q with imageQ := [], nextImage := 0 }
  { s with ring := { s.ring with relaySrc := true, relaying := true, relayReq := some req, relayId := s.upd.imgDigest,
                                 relayCount := fileField (patchSlot s (inactiveSlot s)) 24 4 / 256, relayAt := s.clk.now
                                 lka := start s.ring.lka, lkb := start s.ring.lkb } }

/-- IMAGE_RELAY as a state change (R250, Table 14-12). -/
def imageRelayOp (req : Req) (s : State) : State :=
  runChecked req 0x0B03 ⟨.service, true, false, false⟩ true true (fun s =>
    if s.upd.img ≠ .verified then answer req 0x0B03 0x12 [] s
    else if s.ring.relaying || activationRuns s || stagePends s then answer req 0x0B03 0x02 [] s
    else beginRelay req (accept req 0x0B03 0x01 [] s)) s

/-- IMAGE_RELAY (R250). -/
def execImageRelay (req : Req) (s : State) : Out := .next (imageRelayOp req s)

/-- STATE codes of Table 14-12. -/
def ImgState.code : ImgState → Nat
  | .empty => 0 | .partly => 1 | .verified => 2 | .failed => 3

/-- The fields of IMAGE_STATUS: the version of an inactive image shows once it is verified (Table 14-12). -/
def imageFields (s : State) : List Byte :=
  bvBytes 4 s.upd.active.version ++ (if s.upd.img = .verified then bvBytes 4 s.upd.imgInfo.version else [0, 0, 0, 0])
  ++ leBytes 2 s.upd.chunks.length ++ leBytes 1 s.upd.img.code

/-- IMAGE_STATUS as a state change. -/
def imageStatusOp (req : Req) (s : State) : State := runCommand req 0x0B04 (.atLevel .monitor) (reply req 0x0B04 imageFields) s

/-- IMAGE_STATUS (R331). -/
def execImageStatus (req : Req) (s : State) : Out := .next (imageStatusOp req s)

/-! IMAGE frames (R250, Table 10-6) -/

/-- The IMAGE body of a chunk of the inactive slot. -/
def imageBody (i : Nat) (s : State) : List Byte :=
  bvBytes 4 s.ring.relayId ++ leBytes 2 i ++ leBytes 2 s.ring.relayCount ++ readBytes (256 * i) 256 (patchSlot s (inactiveSlot s))

/-- A port has nothing of the image left to send. -/
def imageSent (s : State) (q : PortS) : Bool := q.state != .up || (q.imageQ.isEmpty && decide (s.ring.relayCount ≤ q.nextImage))

/-- Once the source has sent every chunk it asks the other shelves for their reports (R250). -/
def askReports (s : State) : State :=
  if s.ring.relaySrc && s.ring.relaying && imageSent s s.ring.lka && imageSent s s.ring.lkb && !s.ring.relays.any (isPoll s) then
    afterReport ((((List.range (shelfCount s)).map (· + 1)).filter (· != position s)).foldl (fun st d => askStatus d st) s)
  else s

/-- The pace of IMAGE frames on a port (R250). -/
def imagePace : Nat := us 1400

/-- Sends a chunk on a port, 1.4 ms after the last one at the earliest (R250). -/
def emitImage (p : Port) (i : Nat) (s : State) : State :=
  let s := advanceTo (((portOf s p).imageAt.map (· + imagePace)).getD 0) s
  sendOwn p 5 (imageBody i s) (modPort p (fun q => { q with imageAt := some s.clk.now }) s)

/-- Sends the next chunk on a port: one to pass on or asked for again, or at the source the next in order (R250). -/
def sendImage (p : Port) (s : State) : State :=
  let q := portOf s p
  if !onRing s || q.state != .up then s
  else match q.imageQ with
    | i :: is => emitImage p i (modPort p (fun q => { q with imageQ := is }) s)
    | [] =>
      if s.ring.relaySrc && decide (q.nextImage < s.ring.relayCount) then
        emitImage p q.nextImage (modPort p (fun q => { q with nextImage := q.nextImage + 1 }) s)
      else s

/-- IMAGE_FRAME_SEND (R250). -/
def execImageFrameSend (port : Port) (s : State) : Out := .next (askReports (sendImage port s))

/-- The first chunk of another image makes the inactive slot partly written and the relay run here (R250). -/
def startReceive (id : BitVec 32) (total : Nat) (s : State) : State :=
  if s.ring.relaying && s.ring.relayId == id then s
  else
    { s with ring := { s.ring with relaying := true, relaySrc := false, relayId := id, relayCount := total }
             upd := { s.upd with img := .partly, chunks := [] } }

/-- The indices between the last chunk held and this one are missing: the neighbour that feeds this port is asked for them (R250). -/
def askMissing (src i : Nat) (s : State) : State :=
  let from_ := ((s.upd.chunks.filter (· < i)).foldl (fun a c => max a (c + 1)) 0)
  ((List.range i).filter (fun j => decide (from_ ≤ j))).foldl (fun st j => sendMsg src 0x04 (Config.encodeResend st.ring.relayId.toNat j) st) s

/-- When the last chunk has arrived the image is verified (R250, R369). -/
def endReceive (s : State) : State :=
  if s.ring.relayCount ≤ s.upd.chunks.length then
    let s := verifyInactive s
    { s with ring := { s.ring with relaying := false } }
  else s

/-- A chunk that is not yet held is written to the inactive slot and passed on by the other port (R250); where the slot cannot be written
(R42, R286), and during an activation, the chunk is not taken. -/
def applyImage (p : Port) (f : Frame) (s : State) : State :=
  let id := BitVec.ofNat 32 (fieldAt f.body 0 4)
  let i := fieldAt f.body 4 2
  let total := fieldAt f.body 6 2
  let whole := s.upd.img == .verified && s.upd.imgDigest == id
  if (s.ring.relaySrc && s.ring.relaying) || whole || activationRuns s || !canWrite s || total ≤ i || 2048 < total then s
  else
    let s := startReceive id total s
    if s.upd.chunks.contains i then s
    else
      let s := askMissing f.src.toNat i s
      let s := writeSlot (256 * i) (bytesAt f.body 8 256) { s with upd := { s.upd with chunks := i :: s.upd.chunks } }
      endReceive (modPort (otherPort p) (fun q => { q with imageQ := q.imageQ ++ [i] }) s)

/-- IMAGE_FRAME_RECEIVED (R250). -/
def execImageFrameReceived (port : Port) (frame : Frame) (s : State) : Out :=
  .next (if frame.ftype = 5 then takeFrame port frame (applyImage port frame) s else s)

end Sys2Proof.Machine
end

