-- ==== Sys2Proof/Machine/SystemCmd.lean ====
section
/-! DEFINITION. The system commands, group 0x01 (R316, R317). -/

namespace Sys2Proof.Machine

/-- The response of SYS_INFO (Table 14-1). -/
def sysInfoFields (s : State) : List Byte :=
  bvBytes 4 (hidWord s) ++ leBytes 8 (s.parN 0x0200) ++ bvBytes 4 s.cfg.gen ++ bvBytes 4 s.clk.opsec ++ bvBytes 4 s.clk.cycles
  ++ leBytes 1 s.key.life.code ++ leBytes 1 s.clk.pstate.code ++ leBytes 2 (notReadyBits s)

/-- SYS_INFO as a state change. -/
def sysInfoOp (req : Req) (s : State) : State := runCommand req 0x0101 (.atLevel .monitor) (reply req 0x0101 sysInfoFields) s

/-- SYS_INFO (R316). -/
def execSysInfo (req : Req) (s : State) : Out := .next (sysInfoOp req s)

/-- The restart that SYS_RESET orders begins at the pop of its response, or 1 ms after its push (R332). -/
def orderRestart (activate : Bool) (s : State) : State :=
  { s with host := { s.host with restart := some (activate, s.clk.now + ms 1) } }

/-- SYS_RESET as a state change: BAD_FIELD for another KIND (Table 14-1). -/
def sysResetOp (req : Req) (kind : Byte) (s : State) : State :=
  runCommand req 0x0102 (.atLevel .service) (fun s =>
    if kind = 0x01 then orderRestart false (answer req 0x0102 0x00 [] s) else answer req 0x0102 0x11 [] s) s

/-- SYS_RESET (R316, R332). -/
def execSysReset (req : Req) (kind : Byte) (s : State) : Out := .next (sysResetOp req kind s)

/-- A sensor as TEMP_READ reports it: 0x8000 when excluded. -/
def sensorBytes (p : Int × Bool) : List Byte := if p.2 then [0x00, 0x80] else leInt 2 p.1

/-- The response of TEMP_READ: 18 sensors, then the two dies (Table 14-1, R279). -/
def tempFields (s : State) : List Byte :=
  (s.flt.ctrl.zip s.flt.ctrlOut).flatMap sensorBytes ++ (s.flt.power.zip s.flt.powerOut).flatMap sensorBytes
  ++ leInt 2 ((highest (ctrlValid s)).getD 0) ++ leInt 2 ((highest (powerValid s)).getD 0)

/-- TEMP_READ as a state change. -/
def tempReadOp (req : Req) (s : State) : State := runCommand req 0x0103 (.atLevel .monitor) (reply req 0x0103 tempFields) s

/-- TEMP_READ (R316). -/
def execTempRead (req : Req) (s : State) : Out := .next (tempReadOp req s)

/-- SEVERE of FAULT_READ: bit b = source b severe. -/
def severeMask (s : State) : Nat := maskOf (s.flt.sources.map (·.severe))

/-- The response of FAULT_READ (Table 14-1). -/
def faultFields (s : State) : List Byte :=
  bvBytes 4 (fstatWord s) ++ leBytes 4 (severeMask s) ++ leBytes 1 (s.flt.fatalSrc.getD 0xFF)

/-- FAULT_READ as a state change. -/
def faultReadOp (req : Req) (s : State) : State := runCommand req 0x0104 (.atLevel .monitor) (reply req 0x0104 faultFields) s

/-- FAULT_READ (R316). -/
def execFaultRead (req : Req) (s : State) : Out := .next (faultReadOp req s)

/-- The W1C bits of FSTAT, 29 to 3 (Table 12-3). -/
def w1cMask : BitVec 32 := 0x3FFFFFF8#32

/-- The cause that an FSTAT bit stands for is still present (R287); sources whose events are momentary are not. -/
def stillActive (s : State) (b : Nat) : Bool :=
  (sourceRec s b).active
  || (if b = 29 then s.flt.ctrlWarn.above || s.flt.powWarn.above
      else if b = 28 then s.flt.ctrlThr.above || s.flt.powThr.above
      else if b = 27 then s.flt.ctrlShut.above || s.flt.powShut.above
      else if b = 26 then s.flt.ctrlOut.any id || s.flt.powerOut.any id
      else if b = 25 then !nvWindow s
      else if b = 24 then (presentLevels s).any fun k => (lvl s k).st == .parked && guardCause (lvl s k).cause && (lvl s k).clearedAt.isNone
      else if b = 22 then s.meas.tapOpen != 0
      else if b = 21 then s.meas.disagree || s.meas.shuntFail || s.meas.hallFail
      else if b = 20 then ntcFault s
      else if b = 19 then s.clk.shoreLost || s.flt.fatalSrc == some 19
      else if b = 17 then s.rack.lost
      else if b = 11 then s.aux.rails.any fun r => r.st == .latchedOff
      else if b = 10 then s.aux.fuses.any fun f => f.st == .tripped || f.st == .damaged
      else if b = 9 then s.sup.holdup
      else if b = 6 then s.chg.tokenLost || s.chg.token == .invalid
      else if b = 5 then s.rack.rows.any (·.mismatch)
      else if b = 18 then s.clk.pstate == .run && (s.ring.lka.state == .down || s.ring.lkb.state == .down)
      else if b = 3 then (presentLevels s).any fun k => (cellNtc s k).any fun n => n.outCh || n.outDis
      else false)

/-- Clears W1C bits; a bit whose source is still active sets again (R287). -/
def clearBits (mask : BitVec 32) (s : State) : State :=
  let kept := BitVec.ofNat 32 (maskOf ((List.range 32).map (stillActive s)))
  { s with flt := { s.flt with fstat := (s.flt.fstat &&& ~~~(mask &&& w1cMask)) ||| (s.flt.fstat &&& kept) } }

/-- FAULT_CLEAR of bit 31 clears FATAL and ends out of service; the shelf then returns through admission (R290). -/
def endFatal (s : State) : State :=
  { s with flt := { s.flt with fstat := s.flt.fstat &&& 0x7FFFFFFF#32, fatalSrc := none }, lad := { s.lad with oos := false } }

/-- FAULT_CLEAR as a state change. -/
def faultClearOp (req : Req) (mask : BitVec 32) (s : State) : State :=
  runCommand req 0x0105 (.atLevel .service) (fun s =>
    if mask.getLsbD 31 && causePersists s then answer req 0x0105 0x12 [] s
    else
      let cleared := fstatWord s &&& mask &&& 0xBFFFFFF8#32
      let s := clearBits mask s
      let s := if mask.getLsbD 24 then { s with lad := { s.lad with severeHold := false } } else s
      let s := if mask.getLsbD 31 then endFatal s else s
      answer req 0x0105 0x00 (bvBytes 4 cleared) s) s

/-- FAULT_CLEAR (R316, R98, R290). -/
def execFaultClear (req : Req) (mask : BitVec 32) (s : State) : Out := .next (faultClearOp req mask s)

/-- The block carries requests of that mailbox (Table 14-1). -/
def carries (block : Byte) (mb : Mailbox) : Bool := (block == 3 && mb == .twb) || (block == 4 && mb == .uart)

/-- A gate action carried out: block 1 is the model engine; running it again initialises every tile (R317). -/
def gateBlock (block action : Byte) (s : State) : State :=
  let was := s.eng.gated
  let s := { s with host := { s.host with gates := s.host.gates.set (block.toNat - 1) action } }
  if block = 1 then
    let s := { s with eng := { s.eng with gated := action != 0 } }
    if was && action == 0 then initTiles s else s
  else s

/-- BLOCK_GATE as a state change: POSTPONED while an attempt holds bus A (R317, R353). -/
def blockGateOp (req : Req) (block action : Byte) (s : State) : State :=
  runCommand req 0x0107 (.atLevel .service) (fun s =>
    if block.toNat < 1 ∨ 4 < block.toNat ∨ 2 < action.toNat ∨ carries block req.mb then answer req 0x0107 0x11 [] s
    else if block = 2 ∧ action ≠ 0 ∧ s.busA.held then accept req 0x0107 0x03 [block, action] s
    else answer req 0x0107 0x00 [action] (gateBlock block action s)) s

/-- BLOCK_GATE (R317). -/
def execBlockGate (req : Req) (block action : Byte) (s : State) : Out := .next (blockGateOp req block action s)

end Sys2Proof.Machine
end

