-- ==== Sys2Proof/Machine/Activation.lean ====
section
/-! DEFINITION. Activation of a patch image: ACTIVATE, the grant of the Wellhead, the restart and the trial (R371 to R376). -/

namespace Sys2Proof.Machine

/-! At the shelf that activates (R373) -/

/-- ACTIVATE gets its response; one whose session has ended is discarded (R300, R309). -/
def answerActivate (status : Byte) (s : State) : State :=
  match s.upd.actReq with
  | none => s
  | some req =>
    let dropped := (mail s req.mb).dropRun.contains req.tag
    let s := { s with upd := { s.upd with actReq := none }, host := { s.host with running := s.host.running.filter fun r => r.req != req } }
    let s := modMail req.mb (fun m => { m with busy := false, dropRun := m.dropRun.filter (· != req.tag) }) s
    let s := if dropped then s else answer req 0x0B05 status [] s
    if status = 0x00 then orderRestart true s else s

/-- ACTIVATE begins: a Wellhead first makes the planned handover, and the request for a grant goes to the Wellhead (R332, R373). -/
def beginActivate (req : Req) (s : State) : State :=
  let s := modMail req.mb (fun m => { m with busy := true }) s
  let s := { s with upd := { s.upd with actReq := some req, actAt := s.clk.now }
                    host := { s.host with running := s.host.running ++ [⟨req, 0x0B05, [], 0, [], false, s.clk.now⟩] } }
  requestGrant (planHandover s)

/-- ACTIVATE as a state change (R331, R373, Table 14-12, Table 14-16). -/
def activateOp (req : Req) (expect : BitVec 32) (s : State) : State :=
  runCommand req 0x0B05 (.atLevel .service) (fun s =>
    if s.ring.relaying || stagePends s || activationRuns s then answer req 0x0B05 0x02 [] s
    else if s.upd.img ≠ .verified ∨ s.upd.imgDigest ≠ expect then answer req 0x0B05 0x12 [] s
    else beginActivate req s) s

/-- ACTIVATE (R373). -/
def execActivate (req : Req) (expect : BitVec 32) (s : State) : Out := .next (activateOp req expect s)

/-- A grant arrives: KIND 0x12 and its RESULT (R373, Table 16-7). -/
def takeGrant (data : List Byte) (s : State) : State :=
  let r := data.getD 1 0xFF
  if data.getD 0 0 = 0x12 ∧ (r = 0x00 ∨ r = 0x02 ∨ r = 0x41) then answerActivate r s else s

/-- GRANT_RECEIVED (R373). -/
def execGrantReceived (data : List Byte) (s : State) : Out := .next (takeGrant data s)

/-- No answer within 4 ms: BUSY (R373). -/
def grantTimeout (s : State) : State :=
  if s.upd.actReq.isSome && !s.rack.wellhead then answerActivate 0x02 (advanceTo (s.upd.actAt + ms 4) s) else s

/-- GRANT_TIMEOUT (R373). -/
def execGrantTimeout (s : State) : Out := .next (grantTimeout s)

/-! At the Wellhead (R371, R372) -/

/-- VERSION_REPORT: the Wellhead takes it, and it ends a standing grant of that shelf (R371, R372). -/
def execVersionReport (src : Byte) (data : List Byte) (s : State) : Out :=
  .next (if s.rack.wellhead ∧ data.getD 0 0 = 0x10 then takeVersion src.toNat (versionOf data) s else s)

/-- Two versions run together: each lies within the other's band (R372). -/
def compatible (a b : VersionRep) : Bool :=
  let within := fun (v : BitVec 32) (w : VersionRep) => decide (w.bandMin.toNat ≤ v.toNat ∧ v.toNat ≤ w.bandMax.toNat)
  within a.version b && within b.version a

/-- The Wellhead's answer to a candidate of a shelf: RESULT and the shelf that caused it (R372, Table 16-7). -/
def judgeRequest (src : Nat) (v : VersionRep) (s : State) : Nat × Nat :=
  let l := serviceShelves s
  match s.rack.grantTo.filter (· != src) with
  | some h => (0x02, h)
  | none =>
    match l.find? fun h => (row s h).version.isNone with
    | some h => (0x02, h)
    | none =>
      match l.find? fun h => h != src && !((row s h).version.all fun w => compatible v w) with
      | some h => (0x41, h)
      | none => (0x00, 0)

/-- An activation request at the Wellhead: a grant stands from here, with HOLD_SHARE for the requester (R372). -/
def takeRequest (src : Nat) (data : List Byte) (s : State) : State :=
  if !s.rack.wellhead || data.getD 0 0 != 0x11 then s
  else
    let r := judgeRequest src (versionOf data) s
    let s := if r.1 = 0 then { s with rack := { s.rack with grantTo := some src, grantAt := s.clk.now } } else s
    sendMsg src 0x02 [0x12, BitVec.ofNat 8 r.1, BitVec.ofNat 8 r.2, 0] s

/-- ACTIVATION_REQUEST (R372). -/
def execActivationRequest (src : Byte) (data : List Byte) (s : State) : Out := .next (takeRequest src.toNat data s)

/-- GRANT_EXPIRY: a grant stands for 200 ms at most (R372). -/
def execGrantExpiry (s : State) : Out :=
  .next (if s.rack.grantTo.isSome then
      let s := advanceTo (s.rack.grantAt + ms 200) s
      { s with rack := { s.rack with grantTo := none } }
    else s)

/-! The restart and the trial (R374, R375, Table 16-8) -/

/-- The image is verified again and installed: the inactive slot becomes active, on trial, and the slot active before becomes the inactive
one, verified as it was (R374, R375). An image that no longer verifies is marked failed and the slot stays as it was. -/
def swapSlots (s : State) : State :=
  let target := inactiveSlot s
  if imageVerifies s target then
    let old := s.upd
    let was := match old.activeSlot with
      | some _ => ImgState.verified
      | none => ImgState.empty
    let m := patchSlot s (!target)
    let s := runSlot (some target) s
    { s with upd := { s.upd with
        trial := some s.clk.now, trialRun := 0, prevSlot := old.activeSlot, floorNew := old.imgFloor
        img := was, imgInfo := old.active, imgPatch := old.patch, imgFloor := BitVec.ofNat 32 (fileField m 32 4), imgDigest := digestLow m
        chunks := if old.activeSlot.isSome then List.range (fileField m 24 4 / 256) else [] } }
  else { s with upd := { s.upd with img := .failed } }

/-- The activation restart: the ladder freezes, the processors restart with the new image; the engine, the performance counters, the ring and
its time, and the shore domain go on (R374, Table 3-6, Table 3-9). -/
def activationRestart (s : State) : State :=
  let was := hostReady s
  let s := restartProcessors true (freezeLadder (traceMark 6 0 0 0 s))
  let s := swapSlots { s with clk := { s.clk with inReset := some .activate, resetAt := s.clk.now }, upd := { s.upd with activating := true } }
  noteReady was s

/-- ACTIVATION_RESTART: at the pop of the response, or 1 ms after its push, and after a journal commit under way (R332, Table 14-16). -/
def execActivationRestart (s : State) : Out :=
  .next (match s.host.restart with
    | some (true, t) => if s.clk.pstate = .run ∨ s.clk.pstate = .watch then activationRestart (advanceTo (max t s.nv.writeUntil) s) else s
    | _ => s)

/-- The trial ends after 60 s in Run: the rollback floor rises to the image's FLOOR and never falls (R369, R375). -/
def endTrial (s : State) : State :=
  match s.upd.trial with
  | none => s
  | some t =>
    let s := advanceTo (t + (sec 60 - s.upd.trialRun)) s
    { s with upd := { s.upd with trial := none, trialRun := 0 }, key := { s.key with floor := if s.key.floor.toNat < s.upd.floorNew.toNat then s.upd.floorNew else s.key.floor } }

/-- TRIAL_END (R375). -/
def execTrialEnd (s : State) : Out := .next (if s.clk.pstate = .run then endTrial s else s)

end Sys2Proof.Machine
end

