-- ==== Sys2Proof/Machine/AuxCmd.lean ====
section
/-! DEFINITION. The auxiliary power commands, group 0x08 (R275, R328). -/

namespace Sys2Proof.Machine

/-- The response of AUX_STATUS (Table 14-9). -/
def auxFields (s : State) : List Byte :=
  ((List.range 4).flatMap fun x => leBytes 2 (railWord s x)) ++ ((List.range 6).flatMap fun x => leBytes 2 (fuseWord s x))
  ++ (s.aux.rails.flatMap fun r => leBytes 2 r.vout) ++ (s.aux.fuses.flatMap fun f => leInt 2 f.current)

/-- AUX_STATUS as a state change. -/
def auxStatusOp (req : Req) (s : State) : State := runCommand req 0x0801 (.atLevel .monitor) (reply req 0x0801 auxFields) s

/-- AUX_STATUS (R275, R328). -/
def execAuxStatus (req : Req) (s : State) : Out := .next (auxStatusOp req s)

/-- RAIL_CLEAR as a state change: only channel 3's latch is cleared by command; it restarts with its check (R258, R328). -/
def railClearOp (req : Req) (channel : Byte) (s : State) : State :=
  runCommand req 0x0802 (.atLevel .operator) (fun s =>
    if channel ≠ 3 then answer req 0x0802 0x11 [] s
    else if (railOf s 3).st ≠ .latchedOff then answer req 0x0802 0x12 [] s
    else
      let s := startRail 3 false (accept req 0x0802 0x01 [channel] s)
      { s with aux := { s.aux with railReq := s.aux.railReq ++ [req] } }) s

/-- RAIL_CLEAR (R258, R328). -/
def execRailClear (req : Req) (channel : Byte) (s : State) : Out := .next (railClearOp req channel s)

/-- A cleared eFuse channel restarts with its pre-check where it may; otherwise it stays off and the request ends (R328). -/
def restartFuse (req : Req) (x : Nat) (s : State) : State :=
  if mayTurnOn s x then modFuse x (fun f => { f with req := f.req ++ [req] }) (startFuse x s)
  else finish req 0x00 (leBytes 2 (fuseWord s x)) s

/-- EFUSE_CLEAR as a state change (Table 14-9): damage is cleared at Service level only, under the NV conditions. -/
def efuseClearOp (req : Req) (channel : Byte) (s : State) : State :=
  runCommand req 0x0803 (.atLevel .operator) (fun s =>
    let x := channel.toNat - 1
    let f := fuseOf s x
    if channel = 0 ∨ 6 < channel.toNat then answer req 0x0803 0x11 [] s
    else if f.st = .damaged ∧ Access.code req.level < 3 then refuse req 0x0803 .level s
    else if f.st ≠ .damaged ∧ f.st ≠ .tripped then answer req 0x0803 0x12 [] s
    else if f.st = .damaged ∧ (nvRefusal s).isSome then answer req 0x0803 ((nvRefusal s).getD 0x30) [] (journalRefused (count 73 s))
    else let s := accept req 0x0803 0x01 [channel] s
      let s := { s with flt := { s.flt with fuseHold := s.flt.fuseHold &&& ~~~(1#7 <<< (x + 1)) } }
      restartFuse req x (modFuse x (fun f => { f with st := .off }) s)) s

/-- EFUSE_CLEAR (R270, R273, R328). -/
def execEfuseClear (req : Req) (channel : Byte) (s : State) : Out := .next (efuseClearOp req channel s)

/-- EFUSE_PERMIT as a state change: channels 5 and 6; withdrawing it switches the channel off with cause 0xA (R273, R328). -/
def efusePermitOp (req : Req) (channel permit : Byte) (s : State) : State :=
  runCommand req 0x0804 (.atLevel .operator) (fun s =>
    let x := channel.toNat - 1
    if ¬(channel = 5 ∨ channel = 6) ∨ 1 < permit.toNat then answer req 0x0804 0x11 [] s
    else
      let s := modFuse x (fun f => { f with permit := permit == 1 }) s
      let s := if permit = 0 then goOn (dropFuse 0xA x s) else s
      answer req 0x0804 0x00 (leBytes 2 (fuseWord s x)) s) s

/-- EFUSE_PERMIT (R273, R328). -/
def execEfusePermit (req : Req) (channel permit : Byte) (s : State) : Out := .next (efusePermitOp req channel permit s)

/-- STEP_CONTROL of channel 3; switched off it takes cause 0xA (R328; log entry 140). -/
def stepRail (req : Req) (on : Bool) (s : State) : State :=
  let r := railOf s 3
  if r.st = .latchedOff then answer req 0x0805 0x12 [] s
  else if on then
    let s := accept req 0x0805 0x01 [] s
    if r.st = .off then
      startRail 3 false { s with aux := { s.aux with railReq := s.aux.railReq ++ [req] } }
    else if stepStarting s 0x03 then { s with aux := { s.aux with railReq := s.aux.railReq ++ [req] } }
    else finish req 0x00 (leBytes 2 (railWord s 3)) s
  else
    let s := accept req 0x0805 0x01 [] s
    let s := if r.st = .off then s else answerRail (dropDependants (shutRail 3 0xA s))
    finish req 0x00 (leBytes 2 (railWord s 3)) s

/-- STEP_CONTROL of eFuse channel x + 1. -/
def stepFuse (req : Req) (x : Nat) (on : Bool) (s : State) : State :=
  let f := fuseOf s x
  if f.st = .tripped ∨ f.st = .damaged ∨ (4 ≤ x ∧ f.permit = false) then answer req 0x0805 0x12 [] s
  else if on then
    if !mayTurnOn s x then answer req 0x0805 0x12 [] s
    else
      let s := accept req 0x0805 0x01 [] s
      if f.st = .off then modFuse x (fun f => { f with req := f.req ++ [req] }) (startFuse x s)
      else if stepStarting s (fuseCode x) then modFuse x (fun f => { f with req := f.req ++ [req] }) s
      else finish req 0x00 (leBytes 2 (fuseWord s x)) s
  else
    let s := dropFuse 0xA x (accept req 0x0805 0x01 [] s)
    finish req 0x00 (leBytes 2 (fuseWord s x)) s

/-- STEP_CONTROL as a state change (R263, R328). -/
def stepControlOp (req : Req) (code action : Byte) (s : State) : State :=
  runCommand req 0x0805 (.atLevel .operator) (fun s =>
    if ¬(code = 0x03 ∨ (0x21 ≤ code.toNat ∧ code.toNat ≤ 0x26)) ∨ 1 < action.toNat then answer req 0x0805 0x11 [] s
    else if code = 0x03 then goOn (stepRail req (action == 1) s)
    else goOn (stepFuse req (code.toNat - 0x21) (action == 1) s)) s

/-- STEP_CONTROL (R263, R328). -/
def execStepControl (req : Req) (code action : Byte) (s : State) : Out := .next (stepControlOp req code action s)

/-- The bytes of a last-fault record but its CRC (Table 11-7). -/
def lastFaultHead (i : Nat) (f : LastFault) : List Byte :=
  bvBytes 4 f.seq ++ bvBytes 4 f.opsec ++ bvBytes 4 f.rtime ++ leBytes 1 (faultChannel i) ++ [f.cause] ++ bvBytes 2 f.vin ++ bvBytes 2 f.vout
  ++ bvBytes 2 f.ipeak ++ bvBytes 2 f.duty ++ bvBytes 2 f.fsw ++ [f.temp, f.rflags] ++ bvBytes 2 f.count

/-- A last-fault record with its CRC (Table 11-7). -/
def lastFaultBytes (i : Nat) (f : LastFault) : List Byte := lastFaultHead i f ++ bvBytes 4 (crc32c (lastFaultHead i f))

/-- The position of a channel number. -/
def faultIndex (c : Nat) : Option Nat := (List.range 10).find? fun i => faultChannel i == c

/-- LAST_FAULT as a state change (R274). -/
def lastFaultOp (req : Req) (channel : Byte) (s : State) : State :=
  runCommand req 0x0806 (.atLevel .monitor) (fun s =>
    match faultIndex channel.toNat with
    | none => answer req 0x0806 0x11 [] s
    | some i => reply req 0x0806 (fun s =>
        let f := standingFault s i
        if f.valid then 1 :: lastFaultBytes i f else List.replicate 33 0) s) s

/-- LAST_FAULT (R274, R328). -/
def execLastFault (req : Req) (channel : Byte) (s : State) : Out := .next (lastFaultOp req channel s)

end Sys2Proof.Machine
end

