-- ==== Sys2Proof/Machine/AuxEv.lean ====
section
/-! DEFINITION. The events of the regulators, the electronic fuses, the sequence and FLT_N (11_aux_power.md, R252 to R276). -/

namespace Sys2Proof.Machine

/-- The shore sequencer runs (Table 3-1). -/
def shoreRuns (s : State) : Bool := s.clk.pstate != .off

/-! The sequence (R262, R264) -/

/-- The configurable sequence goes on after the journal's replay, outside hold-up, and while FLT_N has not paused it; it begins once SEQ_IN permits
(R43, R261, Table 11-10). -/
def seqMayRun (s : State) : Bool :=
  (s.clk.pstate == .watch || s.clk.pstate == .run) && s.clk.replayed && !s.sup.holdup && !s.aux.seqPaused

/-- One step of the list has been taken: the next follows its end by the inter-step delay (R262). -/
def seqTake (code : Nat) (s : State) : State :=
  let s := { s with aux := { s.aux with seqPos := s.aux.seqPos + 1 } }
  if stepStarting s code then s else stepDone s

/-- The step at the sequence's position (Table 11-5). A step that may not start is skipped (R262, R263). -/
def seqAt (s : State) : State :=
  let c := (seqList s).getD s.aux.seqPos 0
  if c = 0x00 then { s with aux := { s.aux with seqRun := .ended } }
  else if c = 0x30 then (if s.aux.seqIn then seqTake c s else s)
  else if c = 0x31 then seqTake c { s with aux := { s.aux with seqOut := true } }
  else seqTake c (startStepCode c s)

/-- The next step of the sequence, or its first (R262): not before the step under way is complete. -/
def seqNext (s : State) : State :=
  if !seqMayRun s then s
  else
    let s : State := if s.aux.seqRun == .idle && s.aux.seqIn then { s with aux := { s.aux with seqRun := .starting, seqPos := 0, seqDue := s.clk.now } } else s
    if s.aux.seqRun != .starting then s
    else if s.aux.seqPos != 0 && stepStarting s ((seqList s).getD (s.aux.seqPos - 1) 0) then s
    else seqAt (advanceTo s.aux.seqDue s)

/-- SEQUENCE_STEP with the level of SEQ_IN (R262, R265). -/
def execSequenceStep (seqIn : Bool) (s : State) : Out :=
  .next (if shoreRuns s then goOn (seqNext { s with aux := { s.aux with seqIn := seqIn } }) else s)

/-- The output of the step under way, at so many mV, lies below its off threshold: a share of a regulator's set value (Table 11-11). An eFuse channel has
no threshold in the settings: its comparator's word is taken (DESIGN CHOICE, log entry 196). -/
def fallen (code mv : Nat) (s : State) : Bool :=
  match shutRailOf code with
  | some x => decide (100 * mv < railPar s x 6 * (railOf s x).vset)
  | none => true

/-- The step under way is off: its output has fallen, or has not within the fall timeout, and it takes cause 0x9 (R264). The dependants of channel 3
that are still on lose their source (R263). -/
def stepFallen (mv : Option Nat) (code : Nat) (s : State) : State :=
  let cause : BitVec 4 := if mv.isSome then 0 else 0x9
  match shutRailOf code with
  | some x =>
    let s := dropRail x cause (modRail x (fun r => { r with vout := mv.getD r.vout }) s)
    if x = 3 then dropDependants s else s
  | none => modFuse (code - 0x21) (fun f => { f with cause := cause, vout := (mv.map (· / 10)).getD f.vout }) s

/-- The next step turns off once the step under way has fallen, or its fall timeout has passed (R264). -/
def shutStep (mv : Option Nat) (s : State) : State :=
  let c := (shutList s).getD s.aux.seqPos 0
  let s := if mv.isSome then s else advanceTo (s.aux.fallAt + ms (s.parN 0x08C5)) s
  if mv.all fun v => fallen c v s then shutNext s.aux.seqPos (stepFallen mv c s) else s

/-- ORDERED_SHUTDOWN_FALL with the output's voltage where it has fallen, or none where the fall timeout passes (R264). -/
def execOrderedShutdownFall (outMv : Option Nat) (s : State) : Out :=
  .next (if shoreRuns s ∧ s.aux.seqRun = .shutting ∧ s.aux.seqWait = false then shutStep outMv s else s)

/-- SEQ_OUT_LEAD_TIME_END (R264): the last step of the list turns off. -/
def execSeqOutLeadTimeEnd (s : State) : Out :=
  .next (match s.aux.leadDue with
    | some t =>
      if shoreRuns s && s.aux.seqRun == .lead then
        let s := advanceTo t s
        shutNext (shutList s).length { s with aux := { s.aux with leadDue := none } }
      else s
    | none => s)

/-! Regulator channels (R254 to R258, R261) -/

/-- An output in mV lies in the power-good window, 93 % to 107 % of the set value (R253). -/
def Rail.inWindow (r : Rail) (mv : Nat) : Bool := decide (93 * r.vset ≤ 100 * mv ∧ 100 * mv ≤ 107 * r.vset)

/-- What a channel's readings show of it: its output and its current. PG falls with an output outside the window (R253), and channel 2 runs
synchronously once VA5 has reached 90 % (R252). -/
def takeReading (x : Nat) (rd : ChanReading) (s : State) : State :=
  modRail x (fun r => { r with vout := rd.vout.toNat, iout := rd.ipeak.toInt, pg := r.pg && r.inWindow rd.vout.toNat
                               nonSync := r.nonSync && decide (10 * rd.vout.toNat < 9 * r.vset) }) s

/-- A latch-off of channel 0 or 1 is a control-die brown-out; one of channel 2 takes the source of both with it (R72, R252, R258; log entry
175). -/
def railBrownOut (x : Nat) (s : State) : State :=
  if x < 3 && (s.clk.pstate == .run || s.clk.pstate == .watch) then brownOut s else s

/-- A channel latches off, with the control die's brown-out where it is channel 0, 1 or 2. -/
def railFails (x : Nat) (cause : BitVec 4) (rd : ChanReading) (s : State) : State :=
  railBrownOut x (latchRail x cause rd (takeReading x rd s))

/-- The readings of a channel that stands with both gates off: its duty is 0, and the peak current is not stated (log entry 2). -/
def idleReading (x : Nat) (s : State) : ChanReading × State :=
  let p := takeFree s
  (⟨BitVec.ofNat 16 ((if x < 2 then (railOf s 2).vout else s.sup.vor) / 10), BitVec.ofNat 16 (railOf s x).vout,
    BitVec.ofNat 16 (Config.freeNat p.1), 0, BitVec.ofInt 8 (powerTemp s)⟩, p.2)

/-- A start that waits for its step delay begins (R261, Table 11-4). -/
def stepDelayEnds (x : Nat) (s : State) : State :=
  match (railOf s x).startAt with
  | some t => if (railOf s x).st == .off && !(s.sup.holdup && decide (2 ≤ x)) then startRail x false (advanceTo t s) else s
  | none => s

/-- The high-side check of a channel ends; in the wake start channel 1 then waits for channel 0 (R256, R261). -/
def checkEnds (x : Nat) (shorted : Bool) (s : State) : State :=
  let s := stepDelayEnds x s
  if (railOf s x).st != .checking then s
  else
    let s := advanceTo ((railOf s x).rampFrom + checkNs s x) s
    if shorted then let p := idleReading x s; railFails x 0x1 p.1 p.2
    else if x = 1 && (railOf s 1).wakeStart && !(railOf s 0).pg then modRail 1 (fun r => { r with checked := true }) s
    else softStart x s

/-- RAIL_SHORT_CHECK_END (R256). -/
def execRailShortCheckEnd (channel : Fin 4) (shorted : Bool) (s : State) : Out :=
  .next (if shoreRuns s then goOn (checkEnds channel.val shorted s) else s)

/-- The model time at which the reference of a channel enters the power-good window on its ramp (R253, R257). -/
def Rail.windowAt (r : Rail) : Nat :=
  let d := r.rampTo - r.rampFrom
  if 100 * r.vfrom < 93 * r.vset then r.rampFrom + ((93 * r.vset - 100 * r.vfrom) * d + 100 * (r.vset - r.vfrom) - 1) / (100 * (r.vset - r.vfrom))
  else if 107 * r.vset < 100 * r.vfrom then
    r.rampFrom + ((100 * r.vfrom - 107 * r.vset) * d + 100 * (r.vfrom - r.vset) - 1) / (100 * (r.vfrom - r.vset))
  else r.rampFrom

/-- A channel of the default start follows another after the step delay of 0.2 ms; in Still none does (R261, R264, Table 11-4). -/
def follow (y : Nat) (s : State) : State :=
  if (railOf s y).st == .off && s.clk.pstate != .still then modRail y (fun r => { r with startAt := some (s.clk.now + us 200) }) s else s

/-- PG rises 100 us after the output has entered its window, 10 us in the wake start: channel 3's step is complete and what waits for channel 3 starts;
channels 0 and 1 follow channels 2 and 0 (R257, R261, R262). -/
def railGood (x : Nat) (s : State) : State :=
  let r := railOf s x
  if !(r.st == .softStart || r.st == .regulating || r.st == .burst) || r.pg then s
  else
    let s := advanceTo (r.windowAt + us (if r.wakeStart then 10 else 100)) s
    let s := modRail x (fun r => { r with pg := true, vout := r.reference s.clk.now, wakeStart := false, nonSync := false }) s
    if x = 3 then stepDone (answerRail s)
    else if x = 2 then (if (railOf s 0).pg then follow 1 s else follow 0 s)
    else if x = 0 then (if (railOf s 1).checked then softStart 1 s else follow 1 s)
    else s

/-- RAIL_POWER_GOOD (R257). -/
def execRailPowerGood (channel : Fin 4) (s : State) : Out := .next (if shoreRuns s then goOn (railGood channel.val s) else s)

/-- The state of a channel after its soft start: channel 2 runs in burst mode in Still, once the ordered shutdown is over (R259, R264). -/
def runState (x : Nat) (s : State) : RailState :=
  if x = 2 && s.clk.pstate == .still && s.aux.seqRun == .idle then .burst else .regulating

/-- Soft start ends: an output below 20 % of its set value is a start failure (R257). -/
def softStartEnds (x : Nat) (rd : ChanReading) (s : State) : State :=
  if (railOf s x).st != .softStart then s
  else
    let s := advanceTo (railOf s x).rampTo s
    if 5 * rd.vout.toNat < (railOf s x).vset then railFails x 0x2 rd s
    else modRail x (fun r => { r with st := runState x s }) (takeReading x rd s)

/-- SOFT_START_END (R257). -/
def execSoftStartEnd (channel : Fin 4) (reading : ChanReading) (s : State) : Out :=
  .next (if shoreRuns s then goOn (softStartEnds channel.val reading s) else s)

/-- CAUSE of a latch (Table 11-8). -/
def tripCause : RailTrip → BitVec 4
  | .limited => 0x3 | .hardOver => 0x4 | .overVoltage => 0x5

/-- A running channel latches off; 32 limited cycles do so after soft start only (R255, R257). -/
def railTrips (x : Nat) (why : RailTrip) (rd : ChanReading) (s : State) : State :=
  let st := (railOf s x).st
  if st == .regulating || st == .burst || (st == .softStart && why != .limited) then railFails x (tripCause why) rd s else s

/-- RAIL_LATCH_OFF (R255). -/
def execRailLatchOff (channel : Fin 4) (reason : RailTrip) (reading : ChanReading) (s : State) : Out :=
  .next (if shoreRuns s then goOn (railTrips channel.val reason reading s) else s)

/-- 100 ms after its latch a channel of 0 to 2 is cleared and starts again; channels 0 and 1 wait for channel 2, and stay off in Still (R258, R263,
R264). -/
def railClears (x : Nat) (s : State) : State :=
  let r := railOf s x
  if x = 3 || r.st != .latchedOff || r.stuck then s
  else
    let s := advanceTo (r.latchedAt + ms 100) s
    let s := modRail x (fun r => { r with st := .off, cause := 0, clears := s.clk.now :: r.clears.filter fun t => decide (s.clk.now < t + sec 10) }) s
    if x = 2 || ((railOf s 2).pg && s.clk.pstate != .still) then startRail x false s else s

/-- RAIL_AUTO_CLEAR (R258). -/
def execRailAutoClear (channel : Fin 4) (s : State) : Out := .next (if shoreRuns s then goOn (railClears channel.val s) else s)

/-- Channel 3 enters or leaves dropout. With VOR below its power-good window the output, which follows VOR, has left the window (R253, R254). -/
def takeDropout (enter : Bool) (s : State) : State :=
  modRail 3 (fun r => { r with dropout := enter, pg := r.pg && !(enter && decide (100 * s.sup.vor < 93 * r.vset)) }) s

/-- CHANNEL_3_DROPOUT (R254). -/
def execChannel3Dropout (enter : Bool) (s : State) : Out :=
  .next (if (railOf s 3).st = .softStart ∨ (railOf s 3).st = .regulating then takeDropout enter s else s)

/-! Electronic fuses (R268 to R273) -/

/-- What a channel's readings show of it (Table 11-7). -/
def takeFuseReading (x : Nat) (rd : ChanReading) (s : State) : State :=
  modFuse x (fun f => { f with vin := rd.vin.toNat, vout := rd.vout.toNat, current := rd.ipeak.toInt }) s

/-- Channel 5 as a pack disconnect closes again: a disconnect that was opened, or failed, is over, and the shelf bypass hardware opens its
switch where that barred it no longer (R89, R99). -/
def passFuse (x : Nat) (s : State) : State :=
  if x = 4 then enforceBypass { s with lad := { s.lad with disc := if s.lad.disc == .waiting then .waiting else .none } } else s

/-- The pre-check of a channel ends after 1 ms: ESx at or above half of the nominal supply is a shorted pass FET (R269). -/
def preCheckEnds (x : Nat) (rd : ChanReading) (s : State) : State :=
  if (fuseOf s x).st != .preCheck then s
  else
    let s := takeFuseReading x rd (advanceTo ((fuseOf s x).since + ms 1) s)
    if 5 * fusePar s x 6 ≤ rd.vin.toNat then failFuse x .damaged 0x6 rd s
    else passFuse x (modFuse x (fun f => { f with st := .ramping, since := s.clk.now, gateDue := s.clk.now + ms (fusePar s x 5) }) s)

/-- EFUSE_PRECHECK_END (R269). -/
def execEfusePrecheckEnd (channel : Fin 6) (reading : ChanReading) (s : State) : Out :=
  .next (if shoreRuns s then goOn (preCheckEnds channel.val reading s) else s)

/-- PG rises: the channel is on and its step is complete (R270). -/
def fuseGood (x : Nat) (s : State) : State :=
  let f := fuseOf s x
  if f.isOn && !f.pg then
    stepDone (answerFuse x (modFuse x (fun f => { f with pg := true, st := if f.st == .ramping then .on else f.st }) s))
  else s

/-- EFUSE_POWER_GOOD (R270). -/
def execEfusePowerGood (channel : Fin 6) (s : State) : Out := .next (if shoreRuns s then goOn (fuseGood channel.val s) else s)

/-- The gate window, from turn-on, passes without PG (R270). -/
def gateWindow (x : Nat) (rd : ChanReading) (s : State) : State :=
  let f := fuseOf s x
  if f.isOn && !f.pg then failFuse x .damaged 0x5 rd (takeFuseReading x rd (advanceTo f.gateDue s)) else s

/-- EFUSE_GATE_WINDOW (R270). -/
def execEfuseGateWindow (channel : Fin 6) (reading : ChanReading) (s : State) : Out :=
  .next (if shoreRuns s then goOn (gateWindow channel.val reading s) else s)

/-- The cause of a trip: channels 1 to 4 fast or by overload time, channels 5 and 6 above five times the limit only (R271, R272). -/
def fuseTripCause (x : Nat) (overload : Bool) : Option (BitVec 4) :=
  if x < 4 then some (if overload then 0x2 else 0x1) else if overload then none else some 0x4

/-- A channel that conducts trips. -/
def fuseTrips (x : Nat) (overload : Bool) (rd : ChanReading) (s : State) : State :=
  match fuseTripCause x overload with
  | some c => if (fuseOf s x).isOn then failFuse x .tripped c rd (takeFuseReading x rd s) else s
  | none => s

/-- EFUSE_TRIP (R271, R272). -/
def execEfuseTrip (channel : Fin 6) (overload : Bool) (reading : ChanReading) (s : State) : Out :=
  .next (if shoreRuns s then goOn (fuseTrips channel.val overload reading s) else s)

/-- Channels 5 and 6 begin or end limiting; the fault timer runs meanwhile (R272). -/
def fuseLimits (x : Nat) (enter : Bool) (s : State) : State :=
  let f := fuseOf s x
  if x < 4 then s
  else if enter then
    (if f.st == .on || f.st == .ramping then modFuse x (fun f => { f with st := .limiting, limitAt := s.clk.now }) s else s)
  else if f.st == .limiting then modFuse x (fun f => { f with st := if f.pg then .on else .ramping }) s
  else s

/-- EFUSE_CURRENT_LIMIT (R272). -/
def execEfuseCurrentLimit (channel : Fin 6) (enter : Bool) (s : State) : Out :=
  .next (if shoreRuns s then fuseLimits channel.val enter s else s)

/-- The fault timer expires (R272); its setting is in 0.1 ms. -/
def fuseTimer (x : Nat) (rd : ChanReading) (s : State) : State :=
  let f := fuseOf s x
  if 4 ≤ x && f.st == .limiting then
    failFuse x .tripped 0x3 rd (takeFuseReading x rd (advanceTo (f.limitAt + us (100 * fusePar s x 3)) s))
  else s

/-- EFUSE_FAULT_TIMER (R272). -/
def execEfuseFaultTimer (channel : Fin 6) (reading : ChanReading) (s : State) : Out :=
  .next (if shoreRuns s then goOn (fuseTimer channel.val reading s) else s)

/-! FLT_N (R266, Table 11-10) -/

/-- FLT_N, held low by another device, sheds the steps of the reaction mask (R266). -/
def reactFlt (s : State) : State := shedMask (s.parN 0x08C3) s

/-- FLT_N is low for 10 us from another device: the SZ716 reacts only while it is not driving the land itself (R266). -/
def fltFalls (s : State) : State :=
  if s.aux.fltExt then s
  else
    let own := s.aux.fltOwn.isSome
    let s := { s with aux := { s.aux with fltExt := true, restartAt := none } }
    if own then s else reactFlt (seqRecord 0x4 0 s)

/-- FLT_N_EXTERNAL_LOW (R266). -/
def execFltNExternalLow (s : State) : Out := .next (if shoreRuns s then fltFalls s else s)

/-- FLT_N has risen: its record, and the restart delay starts (R266, R267). -/
def fltRises (s : State) : State :=
  let s := seqRecord 0x5 0 s
  { s with aux := { s.aux with restartAt := some (s.clk.now + ms (s.parN 0x08C6)) } }

/-- FLT_N_EXTERNAL_HIGH (R266): the land stays low while the own pulse lasts. -/
def execFltNExternalHigh (s : State) : Out :=
  .next (if shoreRuns s ∧ s.aux.fltExt = true then
      let s := { s with aux := { s.aux with fltExt := false } }
      if s.aux.fltOwn.isSome then s else fltRises s
    else s)

/-- The own pulse ends: a land that another device still holds low is reacted to now (R266, Table 11-10). -/
def fltReleased (s : State) : State :=
  match s.aux.fltOwn with
  | none => s
  | some t =>
    let s := advanceTo t s
    let s := { s with aux := { s.aux with fltOwn := none } }
    if s.aux.fltExt then reactFlt s else fltRises s

/-- FLT_N_PULSE_END (R266). -/
def execFltNPulseEnd (s : State) : Out := .next (if shoreRuns s then fltReleased s else s)

/-- FLT_N has been high for the restart delay: the shed steps start again in list order, and a paused sequence goes on (R266, Table
11-10). -/
def fltRestart (s : State) : State :=
  match s.aux.restartAt with
  | none => s
  | some t =>
    if fltLow s || s.sup.holdup then s
    else
      let s := advanceTo t s
      startShed { s with aux := { s.aux with restartAt := none, seqPaused := false, shed := (s.aux.shed ++ s.aux.fltShed).eraseDups, fltShed := [] } }

/-- FLT_N_RESTART (R266). -/
def execFltNRestart (s : State) : Out := .next (if shoreRuns s then fltRestart s else s)

end Sys2Proof.Machine
end

