-- ==== Sys2Proof/Machine/EngineEv.lean ====
section
/-! DEFINITION. The model engine's own events (08_model_engine.md): steps, limits, faults, impedance and throttling. The equations of the
templates and the values of a model file are open (log entry 10). -/

namespace Sys2Proof.Machine

/-- The step period in ns (R178). -/
def stepPeriod (s : State) : Nat := 1000000000 / max 1 (s.parN 0x0602)

/-- The engine does not step: mode off or no file, throttle level 3, stopped by a fault, or gated (R197 to R199, R317). -/
def engineIdle (s : State) : Bool := engineOff s || s.eng.throttle == 3 || s.eng.stopped || s.eng.gated

/-- The tiles that step: tile t serves a present cell and is not withdrawn. -/
def steppingTiles (s : State) : List Nat :=
  (List.range 16).filter fun t =>
    let r := s.eng.tiles.getD t Tile.reset
    !r.fault && (r.cell.any fun k => present s k.val)

/-- Replaces a tile's record. -/
def modTile (t : Nat) (f : Tile → Tile) (s : State) : State := { s with eng := { s.eng with tiles := s.eng.tiles.modify t f } }

/-- The record of a tile. -/
def tileAt (s : State) (t : Nat) : Tile := s.eng.tiles.getD t Tile.reset

/-- A new setting of mode, members or step rate waits for the step boundary (R199). -/
def settingsWait (s : State) : Bool :=
  [0x0600, 0x0601, 0x0602].any fun i => paramIn s.cfg.params i != paramIn s.cfg.effective i

/-! What a member makes of a step (R178, R179) -/

/-- The inputs of a step as the templates take them (R178). -/
def stepInputs (s : State) (t : Tile) : List Rat := [t.inI, t.inStr, t.inT, t.inCool, 1 / (s.parN 0x0602 : Rat)]

/-- The voltage residuals of a member in mV: each usable sample against the voltage at the string current or at zero, by its INS tag (R179). -/
def residuals (s : State) (t : Tile) (m : Member) : List Rat :=
  let v := Config.voltAt (engineMode s) s.nv.fileActive m.params m.x (stepInputs s t)
  t.inV.map fun q => 1000 * (q.1 - v (if q.2 then t.inStr else 0))

/-- The mean of a list, 0 of none. -/
def meanOf (l : List Rat) : Rat := if l.isEmpty then 0 else sumRat l / (l.length : Rat)

/-- A member after a step: its states advance and are corrected by the mean residual, and its weight takes the residuals of voltage and
temperature, with 2 mV and 1 degC (R179). -/
def stepMember (s : State) (t : Tile) (m : Member) : Member :=
  let f := s.nv.fileActive
  let e := residuals s t m
  let ev := meanOf e
  let x := Config.stateAfter (engineMode s) f m.params m.x (stepInputs s t)
  let et := Config.surfaceT (engineMode s) f m.params x - t.inT
  { m with x := Config.corrected (engineMode s) f x ev, weight := m.weight * expNeg (ev * ev / 8 + et * et / 2), sq := meanOf (e.map fun r => r * r) }

/-- The member with the highest weight. -/
def heaviest (l : List Member) : Member := l.foldl (fun a m => if a.weight < m.weight then m else a) (l.headD Member.reset)

/-- The members that pass a test of theirs stay; each other is replaced by a copy of the heaviest with a fresh draw of the perturbed
parameters about the file's values (R179, R180); whether it enters the outputs yet goes with the place it takes (R196). n numbers the drawing. -/
def replaceMembers (s : State) (n t : Nat) (stays : Nat → Member → Bool) (l : List Member) : List Member :=
  mapLvl l fun i m => if stays i m then m else { heaviest l with params := drawPars s n (64 * t + i) (filePars s), late := m.late }

/-! The reduction (R185, R187) -/

/-- One constraint of one member (Table 8-6a). -/
structure Constraint where
  x     : Rat
  xdot  : Rat
  sens  : Rat
  bound : Rat
  side  : Rat
  deriving DecidableEq, Repr

/-- The limit of R187: i is the cell current in the limited direction, h the horizon in s. -/
def limitOver (i h : Rat) : List Constraint → Rat → Rat
  | [], lim => maxRat lim 0
  | c :: cs, lim =>
    limitOver i h cs (if 0 < c.side * c.sens then minRat lim (i + (c.bound - (c.x + h * c.xdot)) / c.sens) else lim)

/-- Quantity q of a member after the step (log entry 10). -/
def memberGives (s : State) (t : Tile) (q : Nat) (m : Member) : Rat :=
  Config.memberGives q (engineMode s) s.nv.fileActive m.params m.x (stepInputs s t) (s.parN 0x0604 : Rat)

/-- The constraints of one member in one direction (Table 8-6a); in circuit mode the plating row is left out (R185). -/
def constraintsOf (s : State) (t : Tile) (charge : Bool) (m : Member) : List Constraint :=
  let g := fun (q : Nat) => memberGives s t q m
  let core : Constraint := ⟨g 2, g 3, if charge then g 4 else g 5, s.parN 0x0605, 1⟩
  if charge then
    (if s.par 0x0600 == 2 then [⟨g 0, g 1, g 6, s.parN 0x0603, -1⟩] else [])
    ++ [core, ⟨g 7, g 8, g 9, (s.parN 0x0606 : Rat) / 200, 1⟩]
  else [core, ⟨g 7, g 8, g 10, (s.parN 0x0607 : Rat) / 200, -1⟩]

/-- The rated current of the file in A (R187); in circuit mode the file's charge-limit map, read at the core temperature and s(k), is one
more term (R185). -/
def ratedLimit (s : State) (charge : Bool) (core : Rat) (soc : Option Rat) : Rat :=
  let r : Rat := ((modelField s (if charge then 36 else 40) 4 : Nat) : Rat) / 1000
  if charge && s.par 0x0600 == 1 then minRat r (Config.chargeMap s.nv.fileActive core soc) else r

/-- The limit of a tile in one direction (R187). inI is positive in discharge. -/
def tileLimit (s : State) (t : Tile) (charge : Bool) (ms : List Member) (rated : Rat) : Rat :=
  limitOver (if charge then -t.inI else t.inI) (s.parN 0x0604 : Rat) (ms.flatMap (constraintsOf s t charge)) rated

/-- The lowest of some values; none of an empty list. -/
def lowest : List Rat → Option Rat
  | [] => none
  | x :: xs => some (xs.foldl minRat x)

/-- The highest of some values, 0 of an empty list. -/
def highestRat : List Rat → Rat
  | [] => 0
  | x :: xs => xs.foldl maxRat x

/-- The members that enter the outputs: an added member stays out for 1 s (R196). -/
def outMembers (s : State) (t : Tile) : List Member := t.members.filter fun m => !(m.late.any fun u => decide (s.clk.now < u))

/-- rho(k): the resistance at the 1 kHz point against the file's value at the same temperature and state of charge, formed once that point
is stored (R189, Table 8-7). No point lies at 1 kHz: point 26, at 873 Hz, is the nearest (DESIGN CHOICE, log entry 166). -/
def rhoAfter (s : State) (t : Tile) : Option Rat :=
  let z := t.points.getD 26 Imp.reset
  if z.stamp.isSome then some (z.re / Config.fileOhm s.nv.fileActive t.impT t.impSoc) else none

/-- The outputs that a tile's members reduce to after a step (R185, R187, R189). -/
def reduced (s : State) (t : Tile) : EngOut :=
  let ms := outMembers s t
  let soc := t.cell.bind fun k => (acc s k.val).soc
  let core := highestRat (ms.map (memberGives s t 2))
  { limCh := tileLimit s t true ms (ratedLimit s true core soc), limDis := tileLimit s t false ms (ratedLimit s false core soc)
    plating := if s.par 0x0600 == 2 then lowest (ms.map (memberGives s t 0)) else none
    coreT := core, lli := medianRat (ms.map (memberGives s t 11)), rratio := rhoAfter s t, stepTime := s.eng.lastStep, ready := true }

/-- The tile's record after a completed step: the members have stepped, the back buffer is written, and the two buffers swap (R179, R185,
R186). -/
def tileAfter (s : State) (t : Tile) : Tile :=
  let ms := t.members.map (stepMember s t)
  let r := { t with members := ms }
  let e := if t.inV.isEmpty then [] else [(s.clk.now, meanOf (ms.map (·.sq)))]
  { r with stepping := false, back := t.front, front := reduced s r, swapAt := some s.clk.ring
           resid := e ++ t.resid.filter fun p => decide (s.clk.now ≤ p.1 + sec 1) }

/-- The charge in mC that a cell took in a step at a margin below zero (Table 8-7 PLATED, log entry 167). -/
def platedBy (s : State) (t : Tile) : Rat :=
  match t.front.plating with
  | some p => if p < 0 then maxRat 0 (-t.inI) * 1000 / (s.parN 0x0602 : Rat) else 0
  | none => 0

/-- Since when the RMS voltage residual of every member, at each step, is above the collapse threshold; a step without a sample has
no residual and changes nothing, and a tile in warm-up has its own limit of 30 s (Table 8-9a; log entry 136). -/
def residualRun (s : State) (t : Tile) : Option Nat :=
  let lim := (s.parN 0x060C : Rat)
  if t.inV.isEmpty then t.overSince
  else if !t.warmup && t.members.all (fun m => decide (lim * lim < m.sq)) then some (t.overSince.getD s.clk.now) else none

/-- The cell that a tile serves as records name it, 0 for none. -/
def cellNo (s : State) (t : Nat) : Nat := ((tileAt s t).cell.map fun k => k.val + 1).getD 0

/-- An ensemble collapse: COLLAPSE, a contained ENGINE event, and the tile initialises (Table 8-9a). -/
def collapseNow (t : Nat) (s : State) : State :=
  raise 16 .contained 2 (cellNo s t) (modTile t (fun r => { r with collapse := true }) (initOne t s))

/-- A tile whose members have all been above the threshold for 1 s collapses (Table 8-9a). -/
def judgeResidual (t : Nat) (s : State) : State :=
  if (tileAt s t).overSince.any fun a => since s a (sec 1) then collapseNow t s else s

/-- Members whose states lie outside their template's bounds are replaced: a contained event (Table 8-9a). -/
def judgeBounds (t : Nat) (s : State) : State :=
  let ok := fun (_ : Nat) (m : Member) => Config.stateOk (engineMode s) s.nv.fileActive m.x
  let bad := ((tileAt s t).members.filter fun m => !ok 0 m).length
  if bad = 0 then s
  else
    let q := takeFree s
    raise 16 .contained 3 (cellNo s t) (countBy 43 bad (modTile t (fun r => { r with members := replaceMembers s q.1 t ok r.members }) q.2))

/-- A tile's step completes: member-steps are counted, outputs published, bounds and collapse judged (R185, R186, Table 8-9a). -/
def completeStep (t : Nat) (s : State) : State :=
  let r := tileAt s t
  if !r.stepping then s
  else
    let s := countBy (24 + t) r.members.length (histFree 3 s)
    let s := modTile t (fun r => let a := tileAfter s r; { a with overSince := residualRun s a }) s
    let s := match r.cell with
      | some k => { s with eng := { s.eng with plated := s.eng.plated.modify k.val (· + platedBy s (tileAt s t)) } }
      | none => s
    judgeResidual t (judgeBounds t s)

/-- ENGINE_STEP_COMPLETE (R185 to R187, R197): in Run (R51); a step that all tiles finish in time ends a run of
overruns (Table 8-9a). -/
def execEngineStepComplete (tile : Fin 16) (s : State) : Out :=
  let t := completeStep tile.val s
  .next (if s.clk.pstate ≠ .run then s
    else if (tileAt s tile.val).stepping && !t.eng.tiles.any (·.stepping) then { t with eng := { t.eng with overrunRun := 0 } } else t)

/-! Faults and fallback (R197) -/

/-- The engine stops on a fault: every cell goes to fallback limits, and it restarts after 1 s (Table 8-9a). -/
def stopEngine (s : State) : State :=
  { s with eng := { s.eng with stopped := true, restartAt := s.clk.now + sec 1, overrunRun := 0, skipNext := false,
                               tiles := s.eng.tiles.map fun t => { t with stepping := false } } }

/-- The ring time of the next step boundary (R178). -/
def nextBoundary (s : State) : Nat := instantFrom (stepPeriod s) 0 (max s.clk.ring (s.eng.lastStep + 1))

/-- A step not finished by the next boundary: it completes late and the next step is skipped; the third in a row stops the engine
(Table 8-9a). -/
def overrun (s : State) : State :=
  if !s.eng.tiles.any (·.stepping) then s
  else
    let s := advanceRing (nextBoundary s) s
    let late := (List.range 16).filter fun t => (tileAt s t).stepping
    let run := s.eng.overrunRun + 1
    let s := count 40 { s with eng := { s.eng with overrunRun := run, overrunAt := some s.clk.now } }
    if 3 ≤ run then stopEngine (raise 16 .contained 1 0 s)
    else raise 16 .corrected 0 0 (late.foldl (fun st t => completeStep t st) { s with eng := { s.eng with skipNext := true } })

/-- ENGINE_OVERRUN: in Run (R197). -/
def execEngineOverrun (s : State) : Out := .next (if s.clk.pstate = .run then overrun s else s)

/-! Step boundaries (R178, R182, R199) -/

/-- The inputs of a step are latched: i(k) and the string current from the integrator's sums over the period d that has passed, the usable samples,
and the temperatures (R178). -/
def latchInputs (s : State) (d : Nat) (t : Tile) : Tile :=
  match t.cell with
  | some k => { t with inI := ampsOver (s.eng.qStep.getD k.val 0) d, inStr := ampsOver s.eng.cStep d
                       inV := s.eng.vStep.getD k.val [], inT := cellTemp s k.val, inCool := pointTemp s 0x14, stepping := true }
  | none => t

/-- Warm-up ends at the first step boundary from 2 s on at which the RMS residual of the last second is at most 5 mV (R182); a collapse
ends with it (log entry 136). -/
def endWarmup (s : State) (t : Tile) : Tile :=
  if t.warmup && since s t.warmAt (sec 2) && !t.resid.isEmpty && decide (rmsSq s t ≤ 25) then { t with warmup := false, collapse := false } else t

/-- What the fabric has gathered for a step is gone: a step has taken it, or its boundary has passed. -/
def clearStep (s : State) : State :=
  { s with eng := { s.eng with qStep := List.replicate 16 0, cStep := 0, vStep := List.replicate 16 [] } }

/-- The word code of tile t, which serves cell k + 1, finds an error (Table 8-9a): a single one is corrected in place; a double one
initialises the tile, and a tile with such an error while the source is severe is withdrawn (R197). -/
def tileWord (bad inj : Bool) (t k : Nat) (s : State) : State :=
  if bad then
    let s' := raiseWith 16 .contained 6 (k + 1) inj false (initOne t (count 42 s))
    if (sourceRec s' 16).severe then withdrawTile k s' else s'
  else raiseWith 16 .corrected 5 (k + 1) inj false (count 41 s)

/-- The tiles that step read their SRAM, where an armed corruption may meet a word (R173, R401; log entry 180). -/
def readTiles (s : State) : State :=
  (List.range 16).foldl (fun st t =>
    let r := tileAt st t
    let p := corruption (0x0201 + t) st
    if r.stepping = false ∨ p.1 = 0 then st else tileWord (decide (2 ≤ p.1)) true t ((r.cell.map (·.val)).getD 15) p.2.2) s

/-- A step boundary: a step still under way is an overrun, waiting settings take effect and every tile initialises (R199), warm-up is
judged, and a step starts unless the one after an overrun is skipped (Table 8-9a). -/
def startStep (s : State) : State :=
  let s := if s.eng.tiles.any (·.stepping) then overrun s else advanceRing (nextBoundary s) s
  let d := stepPeriod s
  let s := if settingsWait s then initTiles (takeIds [0x0600, 0x0601, 0x0602] s) else s
  let s := { s with eng := { s.eng with lastStep := s.clk.ring } }
  if engineIdle s then clearStep s
  else
    let s := { s with eng := { s.eng with tiles := s.eng.tiles.map (endWarmup s) } }
    if s.eng.skipNext then clearStep { s with eng := { s.eng with skipNext := false } }
    else
      let run := steppingTiles s
      readTiles (clearStep { s with eng := { s.eng with tiles := mapLvl s.eng.tiles fun t r => if run.contains t then latchInputs s d r else r } })

/-- ENGINE_STEP: the engine runs only in Run (R178, R198). -/
def execEngineStep (s : State) : Out := .next (if s.clk.pstate = .run then startStep s else s)

/-- A warm-up that has not ended after 30 s sets COLLAPSE; the cell goes to fallback and its tile initialises (R182, Table 8-9a). -/
def collapseTile (t : Nat) (s : State) : State :=
  if s.clk.pstate = .run ∧ (tileAt s t).warmup = true ∧ engineIdle s = false ∧ t ∈ steppingTiles s then
    collapseNow t (advanceTo ((tileAt s t).warmAt + sec 30) s)
  else s

/-- WARMUP_TIMEOUT (R182). -/
def execWarmupTimeout (tile : Fin 16) (s : State) : Out := .next (collapseTile tile.val s)

/-- An engine stopped by a fault restarts after 1 s, and every tile initialises (Table 8-9a, R182). -/
def restartEngine (s : State) : State :=
  if !s.eng.stopped then s
  else
    let s := advanceTo s.eng.restartAt s
    initTiles { s with eng := { s.eng with stopped := false } }

/-- ENGINE_RESTART (R197). -/
def execEngineRestart (s : State) : Out := .next (restartEngine s)

/-- Every second each member below 1 / (4M) of the total weight is replaced, and the weights become equal (R179): the tile and the number
replaced. n numbers the drawing. -/
def resample (s : State) (n t : Nat) (r : Tile) : Tile × Nat :=
  let total := sumRat (r.members.map (·.weight))
  let m := r.members.length
  let low := fun (x : Member) => decide (x.weight * 4 * (m : Rat) < total)
  let l := (replaceMembers s n t (fun _ x => !low x) r.members).map fun x => { x with weight := 1 / (m : Rat) }
  ({ r with members := l }, (r.members.filter low).length)

/-- The resampling of every running tile, at each whole second (R179); members replaced are counted. -/
def resampleTiles (s : State) : State :=
  let p := takeFree (advanceRing (instantFrom (sec 1) 0 (s.clk.ring + 1)) s)
  let run := steppingTiles p.2
  let res := mapLvl p.2.eng.tiles fun t r => if run.contains t then resample p.2 p.1 t r else (r, 0)
  countBy 43 ((res.map (·.2)).foldl (· + ·) 0) { p.2 with eng := { p.2.eng with tiles := res.map (·.1) } }

/-- ENSEMBLE_RESAMPLE: while the engine steps (R179). -/
def execEnsembleResample (s : State) : Out := .next (if s.clk.pstate != .run || engineIdle s then s else resampleTiles s)

/-- The median parameters of an ensemble, record by record (R180). -/
def medianPars (t : Tile) : List Rat := mapLvl t.block fun i _ => medianRat (t.members.map fun m => m.params.getD i 0)

/-- Once an hour in Run the median parameters of each cell go to its learned set in MRAM, bound to the pack (R180); a write that may not
begin waits for the next hour (R286). -/
def writeLearned (s : State) : State :=
  let s := advanceTo s.eng.learnedAt s
  let s := { s with eng := { s.eng with learnedAt := s.clk.now + sec 3600 } }
  if !canWrite s then s
  else
    let set := fun (k : Nat) (o : Option (List Rat)) => if engineOn s k && (tileRec s k).front.ready then some (medianPars (tileRec s k)) else o
    { s with eng := { s.eng with learned := mapLvl s.eng.learned set } }

/-- LEARNED_SET_WRITE: in Run (R180, R286). -/
def execLearnedSetWrite (s : State) : Out := .next (if s.clk.pstate = .run then writeLearned s else s)

/-! Impedance and dither (R190 to R192) -/

/-- The window of point j of cell k + 1 ends once its 4 sub-windows are full: Z(j) is stored when the coherence is at least the minimum, and
the next window opens (R191). -/
def endWindow (k j : Nat) (s : State) : State :=
  match tileOf s k with
  | none => s
  | some t =>
    let p := (tileAt s t).points.getD j Imp.reset
    let c := p.coherence
    if p.subs.length < 4 then s
    else if c * 100 < (s.parN 0x060B : Rat) ∨ p.powers.2 = 0 then modTile t (fun r => { r with points := r.points.set j p.reopen }) s
    else
      let z := { p.reopen with re := p.cross.1 / p.powers.2, im := p.cross.2 / p.powers.2, coh := reportNat 16 (c * 65535), stamp := some s.clk.now }
      count 94 (modTile t (fun r => { r with points := r.points.set j z, impI := -(p.iSum / (p.num : Rat)), impT := p.tSum / (p.num : Rat)
                                             impTime := s.clk.ring, impSoc := (acc s k).soc }) s)

/-- IMPEDANCE_WINDOW_END: in Run (R51, R191). -/
def execImpedanceWindowEnd (level : Lvl) (point : Fin 32) (s : State) : Out := .next (if s.clk.pstate = .run then endWindow level.val point.val s else s)

/-- DITHER_CHIP: the sequence of 255 chips moves on every 50 ms (R192). -/
def execDitherChip (s : State) : Out :=
  .next (if s.clk.pstate = .run then
      let s := advanceRing (instantFrom (ms 50) 0 (s.clk.ring + 1)) s
      { s with eng := { s.eng with chip := (s.eng.chip + 1) % 255 } }
    else s)

/-! Throttling (R195, R196) -/

/-- Tile t at another number of members: the highest are dropped, or copies of surviving ones with fresh parameters are added and left out
of the outputs for 1 s (R196). Which survivor is copied is not stated: they take turns (DESIGN CHOICE, log entry 168). n numbers the
drawing. A tile without a cell has no members. -/
def resizeTile (s : State) (n m t : Nat) (r : Tile) : Tile :=
  if r.cell.isNone then r
  else
    let kept := r.members.take m
    let add := fun (i : Nat) => { kept.getD (i % max 1 kept.length) Member.reset with
      params := drawPars s n (64 * t + kept.length + i) (filePars s), late := some (s.clk.now + sec 1) }
    { r with members := kept ++ (List.range (m - kept.length)).map add }

/-- The throttle level that is due changes at the step boundary: one step, the members with it; a return from level 3 initialises every
tile (R195, R196). -/
def changeThrottle (s : State) : State :=
  let want := s.eng.throttleWant
  if want = s.eng.throttle then s
  else
    let was := s.eng.throttle
    let p := takeFree (count 91 (advanceRing (instantFrom (stepPeriod s) 0 s.clk.ring) s))
    let s := { p.2 with eng := { p.2.eng with throttle := want, throttleAt := p.2.clk.now } }
    if want = 3 then { s with eng := { s.eng with tiles := s.eng.tiles.map fun t => { t with stepping := false } } }
    else if was = 3 then initTiles s
    else { s with eng := { s.eng with tiles := mapLvl s.eng.tiles (resizeTile s p.1 (membersAt s want)) } }

/-- The control die stands at or above the throttle threshold (R195). -/
def dieHot (s : State) : Bool := match highest (ctrlValid s) with | some t => decide (100 * s.par 0x0101 ≤ t) | none => false

/-- The level that the temperature asks for at this moment: level 3 in safe mode, and one level up after 1 s below the threshold less the hysteresis
at the level that stands (R195, R282). -/
def wantThrottle (s : State) : Fin 4 :=
  let l := s.eng.throttle
  let cooled := s.eng.coolSince.any fun t => since s (if l = 3 then t else max t s.eng.throttleAt) (sec 1)
  if s.flt.safe || s.flt.ctrlShut.above then 3
  else if l = 0 && s.flt.ctrlThr.above then 1
  else if l = 1 && dieHot s && since s s.eng.throttleAt (sec 1) then 2
  else if cooled then (if l = 3 then 2 else if l = 2 then 1 else 0)
  else l

/-- THROTTLE_CHANGE: the change that the temperature asks for takes effect at the next step boundary (R195). A wait of 1 s at level 1, or
of 1 s below the threshold less the hysteresis, has passed when the change arrives; the shutdown threshold waits for nothing. -/
def throttleChange (s : State) : State :=
  let s := if s.flt.safe || s.flt.ctrlShut.above then s
    else if s.eng.throttle = 1 && dieHot s then advanceTo (s.eng.throttleAt + sec 1) s
    else match s.eng.coolSince with
      | some t => advanceTo ((if s.eng.throttle = 3 then t else max t s.eng.throttleAt) + sec 1) s
      | none => s
  changeThrottle { s with eng := { s.eng with throttleWant := wantThrottle s } }

/-- THROTTLE_CHANGE: in Run, where the engine runs (R51, R195, R196). -/
def execThrottleChange (s : State) : Out := .next (if s.clk.pstate = .run then throttleChange s else s)

end Sys2Proof.Machine
end

