-- ==== Sys2Proof/Machine/CounterCmd.lean ====
section
/-! DEFINITION. Counters, histograms, consistent cuts, the precise buffer and the trace: their commands, group 0x0C (R333, R390 to R398), SNAP
frames and latches (R395), and the engine counters' interrupt (R397). -/

namespace Sys2Proof.Machine

/-! Cuts (R394, R395) -/

/-- The counters, their GAP flags and the histograms at this moment (R394, Table 18-3). -/
def cutNow (order epoch : BitVec 32) (tLatch : Nat) (late : Bool) (s : State) : Cut :=
  ⟨order, epoch, tLatch, stampRing s, late, s.clk.timeState == .holdover, s.cnt.gap, s.cnt.counters, s.cnt.hist⟩

/-- GAP clears at the first cut after it was set (R391). -/
def clearGap (s : State) : State := { s with cnt := { s.cnt with gap := List.replicate 96 false } }

/-- A SNAP latch: the cut is written into its slot, or waits (R395, R42, R286, counter 95). -/
def latchCut (order epoch : BitVec 32) (tLatch : Nat) (late : Bool) (s : State) : State :=
  let c := cutNow order epoch tLatch late s
  let s := count 95 (clearGap { s with nv := { s.nv with cutWait := s.nv.cutWait ++ [c] } })
  if canWrite s then writeCuts s else s

/-- The oldest order that waits is carried out: at its ring time, or late; a cut that waits in SRAM to be written delays it (R395, log entry
181). -/
def serveOrder (s : State) : State :=
  match s.cnt.orders with
  | [] => s
  | o :: os =>
    if !s.nv.cutWait.isEmpty then s else
    let late := decide (o.2.2 < s.clk.ring)
    latchCut o.1 o.2.1 o.2.2 late (advanceRing o.2.2 { s with cnt := { s.cnt with orders := os } })

/-- SNAP_LATCH: not inside a controller reset or brown-out (R395). -/
def execSnapLatch (s : State) : Out := .next (if s.clk.pstate = .run ∧ s.clk.inReset = none then serveOrder s else s)

/-- An order is observed: it waits behind those that wait; one whose time has passed is latched on receipt (R395). -/
def takeSnap (order epoch : BitVec 32) (tLatch : Nat) (s : State) : State :=
  let s := { s with rack := { s.rack with snapNo := if newer order s.rack.snapNo then order else s.rack.snapNo } }
  if tLatch < s.clk.ring && s.cnt.orders.isEmpty && s.nv.cutWait.isEmpty then latchCut order epoch tLatch true s
  else { s with cnt := { s.cnt with orders := s.cnt.orders ++ [(order, epoch, tLatch)] } }

/-- SNAP_RECEIVED (R395, Table 10-5). -/
def execSnapReceived (port : Port) (frame : Frame) (s : State) : Out :=
  .next (if frame.ftype = 6 then
      takeFrame port frame (takeSnap (BitVec.ofNat 32 (fieldAt frame.body 4 4)) (BitVec.ofNat 32 (fieldAt frame.body 0 4)) (fieldAt frame.body 8 8)) s
    else s)

/-- SNAP_ORDER as a state change (R395, Table 14-13): T_LATCH 0 is 2 ms ahead. -/
def snapOrderOp (req : Req) (tLatch : BitVec 64) (s : State) : State :=
  runCommand req 0x0C03 ⟨.service, true, true, false⟩ (fun s =>
    let t := if tLatch = 0 then s.clk.ring + ms 2 else tLatch.toNat
    if t < s.clk.ring + ms 1 ∨ s.clk.ring + sec 10 < t then answer req 0x0C03 0x11 [] s
    else if s.cnt.orders.isEmpty = false then answer req 0x0C03 0x02 [] s
    else
      let n := s.rack.snapNo + 1
      let s := floodBody 6 (bvBytes 4 s.rack.epoch ++ bvBytes 4 n ++ leBytes 8 t) s
      answer req 0x0C03 0x00 (bvBytes 4 n ++ leBytes 8 t) (takeSnap n s.rack.epoch t s)) s

/-- SNAP_ORDER (R395). -/
def execSnapOrder (req : Req) (tLatch : BitVec 64) (s : State) : Out := .next (snapOrderOp req tLatch s)

/-! Reading (R392, R393, R396) -/

/-- Operator level suffices only while COUNTER_ACCESS is 1 (R312, R393). -/
def counterRules (s : State) : Rules := .atLevel (if s.par 0x0C00 = 1 then .operator else .service)

/-- What SOURCE names: 0 the counters as they run, 1 the mailbox's snapshot, 2 the slot of ORDER; none where no such cut is held (R394,
R396). -/
def cutOf (req : Req) (source : Byte) (order : BitVec 32) (s : State) : Option Cut :=
  if source = 0 then some (cutNow 0 0 0 false s)
  else if source = 1 then (mail s req.mb).snap
  else s.nv.cuts.find? (·.order == order)

/-- Every counter read refreshes the shore mirror, one of a snapshot or a cut too: what a reset resumes is never below a value read (R79). -/
def noteRead (s : State) : State := refreshMirror s

/-- TIME, GAP and VALUE of COUNTER_READ (Table 14-13). -/
def counterFields (c : Cut) (first num : Nat) : List Byte :=
  leBytes 8 c.tActual ++ leBytes 4 (maskOf ((c.gap.drop first).take num)) ++ ((c.counters.drop first).take num).flatMap (leBytes 8)

/-- COUNTER_READ as a state change. -/
def counterReadOp (req : Req) (first num source : Byte) (order : BitVec 32) (s : State) : State :=
  runCommand req 0x0C01 (counterRules s) (fun s =>
    if 95 < first.toNat ∨ num = 0 ∨ 28 < num.toNat ∨ 96 < first.toNat + num.toNat ∨ 2 < source.toNat then answer req 0x0C01 0x11 [] s
    else match cutOf req source order s with
      | none => answer req 0x0C01 0x12 [] s
      | some c => answer req 0x0C01 0x00 (counterFields c first.toNat num.toNat) (noteRead s)) s

/-- COUNTER_READ (R393, R394, R396). -/
def execCounterRead (req : Req) (first num source : Byte) (order : BitVec 32) (s : State) : Out :=
  .next (counterReadOp req first num source order s)

/-- SNAPSHOT as a state change: the mailbox's snapshot is replaced (R394). -/
def snapshotOp (req : Req) (s : State) : State :=
  runCommand req 0x0C02 (counterRules s) (fun s =>
    let c := cutNow 0 0 (stampRing s) false s
    let n := s.cnt.snapCount + 1
    let s := modMail req.mb (fun m => { m with snap := some c }) (clearGap { s with cnt := { s.cnt with snapCount := n } })
    answer req 0x0C02 0x00 (leBytes 8 c.tActual ++ bvBytes 4 n) s) s

/-- SNAPSHOT (R394). -/
def execSnapshot (req : Req) (s : State) : Out := .next (snapshotOp req s)

/-- TIME and BIN of HIST_READ: bins 0 to 15, or 16 to 31 (R392). -/
def histFields (c : Cut) (h half : Nat) : List Byte :=
  leBytes 8 c.tActual ++ (((c.hist.getD h []).drop (16 * half)).take 16).flatMap (leBytes 8)

/-- HIST_READ as a state change. -/
def histReadOp (req : Req) (hist half source : Byte) (order : BitVec 32) (s : State) : State :=
  runCommand req 0x0C04 (counterRules s) (fun s =>
    if 7 < hist.toNat ∨ 1 < half.toNat ∨ 2 < source.toNat then answer req 0x0C04 0x11 [] s
    else match cutOf req source order s with
      | none => answer req 0x0C04 0x12 [] s
      | some c => answer req 0x0C04 0x00 (histFields c hist.toNat half.toNat) (noteRead s)) s

/-- HIST_READ (R392, R394, R396). -/
def execHistRead (req : Req) (hist half source : Byte) (order : BitVec 32) (s : State) : Out := .next (histReadOp req hist half source order s)

/-- The 16 bytes of an entry of the precise buffer (Table 14-13). -/
def preciseBytes (e : Precise) : List Byte := bvBytes 8 e.step ++ [e.template, e.event] ++ bvBytes 4 e.latency ++ [0, 0]

/-- COUNT, NEXT and up to 14 entries from FIRST, counted from the oldest held (R397). -/
def preciseFields (first : Nat) (s : State) : List Byte :=
  let l := (s.cnt.precise.drop first).take 14
  leBytes 1 l.length ++ leBytes 1 (first + l.length) ++ l.flatMap preciseBytes

/-- PRECISE_READ as a state change. -/
def preciseReadOp (req : Req) (first : Byte) (s : State) : State :=
  runCommand req 0x0C05 (counterRules s) (reply req 0x0C05 (preciseFields first.toNat)) s

/-- PRECISE_READ (R397). -/
def execPreciseRead (req : Req) (first : Byte) (s : State) : Out := .next (preciseReadOp req first s)

/-- The 16 bytes of a trace entry (Table 18-4). -/
def traceBytes (e : Trace) : List Byte := bvBytes 6 e.shoreT ++ bvBytes 2 e.fine ++ [e.kind, e.cpu] ++ bvBytes 2 e.id ++ bvBytes 4 e.data

/-- The 232 bytes of the trace from an offset from the oldest entry: bytes beyond the newest entry are 0 (R398). -/
def traceAt (offset : Nat) (s : State) : List Byte :=
  bytesAt (((s.cnt.trace.drop (offset / 16)).take 16).flatMap traceBytes) (offset % 16) 232

/-- TRACE_READ as a state change. -/
def traceReadOp (req : Req) (offset : BitVec 32) (s : State) : State :=
  runCommand req 0x0C06 (.atLevel .service) (fun s =>
    if 16 * s.cnt.trace.length ≤ offset.toNat then answer req 0x0C06 0x11 [] s else answer req 0x0C06 0x00 (traceAt offset.toNat s) s) s

/-- TRACE_READ (R398). -/
def execTraceRead (req : Req) (offset : BitVec 32) (s : State) : Out := .next (traceReadOp req offset s)

/-! The engine counters' interrupt (R397) -/

/-- One sampled event: its entry in the precise buffer of 256, the template being free (log entry 10), and the interrupt. -/
def sampleEvent (counter : Nat) (latency : BitVec 32) (s : State) : State :=
  let p := takeFree s
  let template : Byte := if counter = 40 then 0 else BitVec.ofNat 8 (Config.freeNat p.1)
  let e : Precise := ⟨BitVec.ofNat 64 (s.eng.lastStep / max 1 (stepPeriod s)), template, BitVec.ofNat 8 counter, latency⟩
  { p.2 with cnt := { p.2.cnt with precise := s.cnt.precise.drop (s.cnt.precise.length - 255) ++ [e], irqs := s.cnt.irqs ++ [counter] } }

/-- COUNTER_OVERFLOW_IRQ: counters 24 to 40 sample the engine (R397). -/
def execCounterOverflowIrq (counter : Fin 96) (latency : BitVec 32) (s : State) : Out :=
  .next (if 24 ≤ counter.val ∧ counter.val ≤ 40 then sampleEvent counter.val latency s else s)

end Sys2Proof.Machine
end

