-- ==== Sys2Proof/Machine/HostPort.lean ====
section
/-! DEFINITION. The host SPI port, two-wire bus B and the service UART: registers, windows and queues (R294 to R305, R384 to R389). -/

namespace Sys2Proof.Machine

/-! The register window (R296 to R301) -/

/-- The port answers in Watch and Run, and not while the control die is held in reset (R296, R309). -/
def portAnswers (s : State) : Bool := (s.clk.pstate == .run || s.clk.pstate == .watch) && !inHold s

/-- HSDO carries these bytes in the read. -/
def showBytes (bs : List Byte) (s : State) : State := { s with host := { s.host with hsdo := bs } }

/-- The RC fields of a mailbox are cleared (Table 13-4). -/
def MailS.clearRc (m : MailS) : MailS := { m with resetSeen := false, readyChg := false, reqOvf := false, winErr := false }

/-- FSTAT_WRITE (R287, R299). -/
def execFstatWrite (value : BitVec 32) (s : State) : Out := .next (if portAnswers s then clearBits value s else s)

/-- DROP: the session level of the mailbox returns to Monitor, and its staged set is discarded (R300, R305, R320). -/
def dropSession (mb : Mailbox) (s : State) : State := modMail mb (fun m => { m with level := .monitor, staged := [] }) s

/-- DOOR_DROP (R300). -/
def execDoorDrop (s : State) : Out := .next (if portAnswers s then dropSession .host s else s)

/-- SYNC: both queues are emptied, responses of the commands that run are discarded, the session level is Monitor and RESET_SEEN is set
(R300, R309). -/
def syncMailbox (mb : Mailbox) (s : State) : State :=
  let tags := (s.host.running.filter fun r => r.req.mb == mb).map (·.req.tag) ++ (s.lad.parkTag.filter fun r => r.mb == mb).map (·.tag)
  modMail mb (fun m => { m with reqQ := [], rspQ := [], held := [], resetSeen := true,
                                dropRun := (tags ++ (m.refusal.map (·.1.tag)).toList ++ m.dropRun).eraseDups })
    (dropSession mb s)

/-- DOOR_SYNC (R300). -/
def execDoorSync (s : State) : Out := .next (if portAnswers s then syncMailbox .host s else s)

/-- The byte that a write puts at a register address, if it reaches it: bytes go on to the next address, up to 0x1F (R297). -/
def writtenAt (addr : Nat) (data : List Byte) (a : Nat) : Option Byte := if addr ≤ a ∧ a ≤ 0x1F then data[a - addr]? else none

/-- A register write: FSTAT bits written 1 clear, HIRQ_EN takes its four bits, DOOR acts; read-only and unassigned addresses ignore it
(R297, R299, R300). -/
def writeRegisters (addr : Nat) (data : List Byte) (s : State) : State :=
  let at_ := fun (a : Nat) => (writtenAt addr data a).getD 0
  let s := clearBits (BitVec.ofNat 32 (leNat [at_ 0x08, at_ 0x09, at_ 0x0A, at_ 0x0B])) s
  let s := match writtenAt addr data 0x0C with
    | some b => { s with host := { s.host with irqEn := b.setWidth 4 } }
    | none => s
  let s := if (at_ 0x10).getLsbD 1 then dropSession .host s else s
  if (at_ 0x10).getLsbD 0 then syncMailbox .host s else s

/-- A REQWIN write: exactly 256 bytes push an entry; any other write, and any while READY is 0, is discarded with WIN_ERR (R302, R303). -/
def pushWindow (mb : Mailbox) (bytes : List Byte) (s : State) : State :=
  if bytes.length = 256 then enqueue mb bytes s else modMail mb (fun m => { m with winErr := true }) s

/-- REGISTER_WRITE (R297): address 0x20 is REQWIN, which does not increment. -/
def execRegisterWrite (addr : BitVec 7) (data : List Byte) (s : State) : Out :=
  .next (if portAnswers s = false then s
    else if addr = 0x20 then pushWindow .host data s
    else writeRegisters addr.toNat data s)

/-- REQWIN_PUSH (R302, R303). -/
def execReqwinPush (bytes : List Byte) (s : State) : Out := .next (if portAnswers s then pushWindow .host bytes s else s)

/-- HCS_N low for more than 1 ms ends the transaction with WIN_ERR (R296). -/
def execHcsNTimeout (s : State) : Out :=
  .next (if portAnswers s then modMail .host (fun m => { m with winErr := true }) (showBytes [] s) else s)

/-- The head response is popped (R302). -/
def popResponse (mb : Mailbox) (s : State) : State :=
  match (mail s mb).rspQ with
  | [] => s
  | e :: es => notePopped e (modMail mb (fun m => { m with rspQ := es }) s)

/-- What a response window shows from an offset: the head entry, repeated, or zeros (R302, R385). -/
def windowBytes (mb : Mailbox) (from_ n : Nat) (s : State) : List Byte :=
  match (mail s mb).rspQ with
  | [] => List.replicate n 0
  | e :: _ =>
    let bs := entryBytes e
    (List.range n).map fun i => bs.getD ((from_ + i) % 256) 0

/-- RSPWIN_POP: a read of at least 256 bytes pops the entry once; a shorter one pops nothing (R302). -/
def execRspwinPop (num : Nat) (s : State) : Out :=
  .next (if portAnswers s then
      let s := showBytes (windowBytes .host 0 num s) s
      if 256 ≤ num then popResponse .host s else s
    else showBytes [] s)

/-! Reads of the register window (R294, R297) -/

/-- The register window at one address: the registers of Table 13-2; write-only and unassigned addresses read 0x00 (R297). -/
def registerByte (s : State) (a : Nat) : Byte :=
  (bvBytes 4 (hidWord s) ++ bvBytes 4 (hstatOf .host s) ++ bvBytes 4 (fstatWord s) ++ leBytes 4 s.host.irqEn.toNat).getD a 0

/-- A read of the register window: addresses go on up to 0x1F; RSPWIN shows the head of the response queue and stays at its address, and
REQWIN reads 0x00 (R297, R302, Table 0-5). -/
def registerBytes (s : State) (a n : Nat) : List Byte :=
  if a = 0x40 then windowBytes .host 0 n s
  else (List.range n).map fun i => if a + i ≤ 0x1F then registerByte s (a + i) else 0

/-- A read of n bytes from an address reaches HSTAT (R297, R299). -/
def readsHstat (a n : Nat) : Bool := decide (a < 0x08 ∧ 0x04 < a + n)

/-- HSTAT_READ: a read of n bytes of the register window from an address. It shows what stands there, and where it reaches HSTAT the RC fields clear
(R294, R297, R299); a port that does not answer shows nothing (R296). A read at RSPWIN is RSPWIN_POP. -/
def execHstatRead (addr : BitVec 7) (num : Nat) (s : State) : Out :=
  if addr = 0x40 then execRspwinPop num s
  else .next (if portAnswers s then
      let t := showBytes (registerBytes s addr.toNat num) s
      if readsHstat addr.toNat num then modMail .host MailS.clearRc t else t
    else showBytes [] s)

/-! Two-wire bus B (R384 to R386) -/

/-- Bus B answers: in Watch and Run, not in a reset, and not while its block is gated (R317, R384, R386). -/
def busBAnswers (s : State) : Bool := portAnswers s && s.host.gates.getD 2 0 == 0

/-- A write at the window address: the pointer byte, and the bytes stored from it; a whole entry from 0x00 is pushed at the end, any other
write that stores bytes is discarded with WIN_ERR (R385). -/
def twbWrite (bytes : List Byte) (s : State) : State :=
  match bytes with
  | [] => s
  | p :: bs =>
    let s := { s with host := { s.host with twbPtr := p + BitVec.ofNat 8 bs.length } }
    if bs = [] then s
    else if p = 0 ∧ bs.length = 256 then enqueue .twb bs { s with host := { s.host with twbBuf := bs } }
    else modMail .twb (fun m => { m with winErr := true }) s

/-- TWB_WINDOW_WRITE (R385). -/
def execTwbWindowWrite (bytes : List Byte) (s : State) : Out := .next (if busBAnswers s then twbWrite bytes s else s)

/-- A read at the window address from the pointer; one that began at 0x00 and took all 256 bytes pops the entry (R385). -/
def twbRead (n : Nat) (s : State) : State :=
  let p := s.host.twbPtr
  let s := { s with host := { s.host with twbOut := windowBytes .twb p.toNat n s, twbPtr := p + BitVec.ofNat 8 n } }
  if p = 0 ∧ 256 ≤ n then popResponse .twb s else s

/-- TWB_WINDOW_READ (R385). -/
def execTwbWindowRead (num : Nat) (s : State) : Out := .next (if busBAnswers s then twbRead num s else s)

/-- A read at the status address: the four bytes of the mailbox's HSTAT, whose RC fields clear at STOP (R386); what further bytes carry is
not stated (log entry 2). -/
def twbStatus (n : Nat) (s : State) : State :=
  let p := takeFree s
  let bs := bvBytes 4 (hstatOf .twb s) ++ fitBytes (n - 4) (Config.freeBytes p.1)
  modMail .twb MailS.clearRc { p.2 with host := { p.2.host with twbOut := bs.take n } }

/-- TWB_STATUS_READ (R386). -/
def execTwbStatusRead (num : Nat) (s : State) : Out := .next (if busBAnswers s then twbStatus num s else s)

/-! The service UART (R387 to R389) -/

/-- The UART receives and sends while its block runs (R317). -/
def uartRuns (s : State) : Bool := portAnswers s && s.host.gates.getD 3 0 == 0

/-- One byte: a stop sample of 0 is a framing error, which discards the byte and the partial entry; bytes count from the first one after
an idle line, and the 256th pushes the entry (R388, R389, counter 82). -/
def uartByte (byte : Byte) (stop : Bool) (s : State) : State :=
  if !stop then count 82 { s with host := { s.host with uartBuf := [], uartSkip := true } }
  else if s.host.uartSkip then s
  else
    let buf := s.host.uartBuf ++ [byte]
    if buf.length < 256 then { s with host := { s.host with uartBuf := buf } }
    else enqueue .uart buf { s with host := { s.host with uartBuf := [], uartSkip := true } }

/-- UART_BYTE_RECEIVED (R388, R389). -/
def execUartByteReceived (byte : Byte) (stop : Bool) (s : State) : Out := .next (if uartRuns s then uartByte byte stop s else s)

/-- UART_IDLE: 20 bit times of idle discard a partial entry (R389). -/
def execUartIdle (s : State) : Out :=
  .next (if uartRuns s then { s with host := { s.host with uartBuf := [], uartSkip := false } } else s)

/-- The UART sends the responses that wait, each entry whole (R389). -/
def drainUart (s : State) : State :=
  if uartRuns s then
    let l := (mail s .uart).rspQ
    let s := l.foldl (fun st e => notePopped e st) s
    modMail .uart (fun m => { m with rspQ := [] }) { s with host := { s.host with uartOut := (l.reverse ++ s.host.uartOut).take 8 } }
  else s

end Sys2Proof.Machine
end

