-- ==== Sys2Proof/Machine/Thermal.lean ====
section
/-! DEFINITION. Die temperatures, safe mode, and the events of the fault collector (12_temperature_and_faults.md). -/

namespace Sys2Proof.Machine

/-- Twice the median of a die's valid readings: the sum of the two middle ones (R279). -/
def twiceMedian (l : List Int) : Int :=
  let o := l.foldr insertInt []
  o.getD (o.length / 2) 0 + o.getD ((o.length - 1) / 2) 0

/-- One reading against a threshold: two consecutive ones cross it (R281). -/
def Thresh.step (reached left : Bool) (t : Thresh) : Thresh :=
  let run := if (if t.above then left else reached) then t.run + 1 else 0
  if 2 ≤ run then ⟨!t.above, 0⟩ else ⟨t.above, run⟩

/-- A threshold of the parameter id against a die temperature [0.01 degC]; none stands at the shutdown threshold (R279, R281). -/
def judgeThresh (s : State) (id : Nat) (temp : Option Int) (t : Thresh) : Thresh :=
  match temp with
  | none => ⟨true, 0⟩
  | some c => t.step (decide (100 * s.par id ≤ c)) (decide (c ≤ 100 * (s.par id - s.par 0x0103)))

/-- The temperature of the control die: none with fewer than 4 valid sensors (R279). -/
def ctrlTemp (s : State) : Option Int := if (ctrlValid s).length < 4 then none else highest (ctrlValid s)

/-- The temperature of the power die: none with fewer than 3 valid sensors (R279). -/
def powTemp (s : State) : Option Int := if (powerValid s).length < 3 then none else highest (powerValid s)

/-- Excludes a sensor and raises TSENSOR: fatal when the power die keeps fewer than 3, and the guard acts first, as at the shutdown threshold
(R279, R290, Table 12-5). -/
def excludeSensor (power : Bool) (j : Nat) (s : State) : State :=
  let s := if power then { s with flt := { s.flt with powerOut := s.flt.powerOut.set j true } }
           else { s with flt := { s.flt with ctrlOut := s.flt.ctrlOut.set j true } }
  if power && decide ((powerValid s).length < 3) then raise 26 .fatal 1 0 (guardAll .dieTemperature s) else raise 26 .contained (bit power 0) 0 s

/-- Whether sensor j of a die is excluded. -/
def sensorOut (power : Bool) (j : Nat) (s : State) : Bool := if power then s.flt.powerOut.getD j true else s.flt.ctrlOut.getD j true

/-- Takes the reading of a valid sensor: its value, its run of readings far from the median, and its exclusion (R279). -/
def putReading (power : Bool) (j : Nat) (centi : Int) (inRange : Bool) (s : State) : State :=
  let s := if power then { s with flt := { s.flt with power := s.flt.power.set j centi } }
           else { s with flt := { s.flt with ctrl := s.flt.ctrl.set j centi } }
  let far := decide (3000 < (2 * centi - twiceMedian (if power then powerValid s else ctrlValid s)).natAbs)
  let run := if far then (if power then s.flt.powerRun else s.flt.ctrlRun).getD j 0 + 1 else 0
  let s := if power then { s with flt := { s.flt with powerRun := s.flt.powerRun.set j run } }
           else { s with flt := { s.flt with ctrlRun := s.flt.ctrlRun.set j run } }
  if !inRange || decide (3 ≤ run) then excludeSensor power j s else s

/-- Raises an event when a threshold has just been crossed upward. -/
def onRise (before after : Thresh) (f : State → State) (s : State) : State := if !before.above && after.above then f s else s

/-- The control die against its thresholds, with the actions of Table 12-2; the time for which the die has been cool (R195, R282). -/
def judgeCtrl (s : State) : State :=
  let c := ctrlTemp s
  let w := judgeThresh s 0x0100 c s.flt.ctrlWarn
  let t := judgeThresh s 0x0101 c s.flt.ctrlThr
  let x := judgeThresh s 0x0102 c s.flt.ctrlShut
  let cool := match c with | none => false | some v => decide (v < 100 * (s.par 0x0101 - s.par 0x0103))
  let s' := { s with flt := { s.flt with ctrlWarn := w, ctrlThr := t, ctrlShut := x },
                     eng := { s.eng with coolSince := holdSince s.clk.now cool s.eng.coolSince } }
  let s' := onRise s.flt.ctrlWarn w (raise 29 .corrected 0 0) s'
  let s' := onRise s.flt.ctrlThr t (raise 28 .contained 0 0) s'
  let s' := onRise s.flt.ctrlShut x (enterSafe 0 false) s'
  { s' with eng := { s'.eng with throttleWant := wantThrottle s' } }

/-- The power die against its thresholds: at shutdown the guard parks every level, and the event is fatal (Table 12-2). -/
def judgePower (s : State) : State :=
  let c := powTemp s
  let w := judgeThresh s 0x0100 c s.flt.powWarn
  let t := judgeThresh s 0x0101 c s.flt.powThr
  let x := judgeThresh s 0x0102 c s.flt.powShut
  let s' := { s with flt := { s.flt with powWarn := w, powThr := t, powShut := x } }
  let s' := onRise s.flt.powWarn w (raise 29 .corrected 1 0) s'
  let s' := onRise s.flt.powThr t (raise 28 .corrected 1 0) s'
  onRise s.flt.powShut x (fun st => raise 27 .fatal 1 0 (guardAll .dieTemperature st)) s'

/-- The gate of a reading in ps: 64 us of the 64 MHz RC in Run, by its period as last measured against the PLL; else two periods of the shore clock
(R278). -/
def gatePs (s : State) : Nat := if s.clk.pstate = .run then 4096 * s.clk.rcPs else 61035156

/-- The calibration of sensor j of a die. -/
def calOf (power : Bool) (j : Nat) (s : State) : SensorCal := (if power then s.flt.powerCal else s.flt.ctrlCal).getD j SensorCal.reset

/-- The oscillator's frequency in kHz from its count over the gate (R278). -/
def countKhz (s : State) (n : Nat) : Nat := n * 1000000000 / gatePs s

/-- The temperature in 0.01 degC of a frequency, on the straight line through the two points of the calibration (R278). -/
def SensorCal.centi (c : SensorCal) (khz : Nat) : Int :=
  c.lowT + ((khz : Int) - c.lowKhz) * (c.highT - c.lowT) / ((c.highKhz : Int) - c.lowKhz)

/-- Takes the count of a die sensor: its temperature by the calibration, and whether it lies in the range that this declares (R278, R279, R281,
R286). -/
def takeDieTemp (power : Bool) (j n : Nat) (s : State) : State :=
  if sensorOut power j s then s
  else
    let was := nvWindow s
    let c := calOf power j s
    let f := countKhz s n
    let s := putReading power j (c.centi f) (decide (c.minKhz ≤ f ∧ f ≤ c.maxKhz)) s
    let s := if power then judgePower s else judgeCtrl s
    if was && !nvWindow s then raise 25 .contained 0 0 s else s

/-- DIE_TEMP_READING with the oscillator's count over the gate (R278, R281): the control die is not read in Still. -/
def execDieTempReading (power : Bool) (sensor : Fin 12) (count : Nat) (s : State) : Out :=
  .next (if s.clk.pstate = .off ∨ (s.clk.pstate = .still ∧ power = false) then s else takeDieTemp power sensor.val count s)

/-- Safe mode ends once the die has been cool for 1 s (R282). -/
def exitSafe (s : State) : State :=
  match s.flt.safe, s.eng.coolSince with
  | true, some t =>
    let s := advanceTo (max (t + sec 1) s.flt.safeAt) s
    let s := { s with flt := { s.flt with safe := false } }
    { s with eng := { s.eng with throttleWant := wantThrottle s } }
  | _, _ => s

/-- SAFE_MODE_EXIT (R282). -/
def execSafeModeExit (s : State) : Out := .next (exitSafe s)

/-- The control die stands at or above its shutdown threshold (R279, R282). -/
def atShutdown (s : State) : Bool :=
  match ctrlTemp s with
  | none => true
  | some c => decide (100 * s.par 0x0102 ≤ c)

/-- 10 s of safe mode have passed (R282). -/
def safeTimeout (s : State) : State :=
  if s.flt.safe && atShutdown s && s.flt.fatalSrc != some 27 then raise 27 .fatal 2 0 (advanceTo (s.flt.safeAt + sec 10) s) else s

/-- SAFE_MODE_TIMEOUT (R282). -/
def execSafeModeTimeout (s : State) : Out := .next (safeTimeout s)

/-! The collector -/

/-- The class a source's events have: fixed for HOT_CELL, MAILBOX, CONFIG and SECURITY (R404), and never fatal for ENGINE (Table 12-5). -/
def sourceGrade (b : Nat) (g : Grade) : Grade :=
  if b = 3 then .none
  else if b = 4 || b = 5 || b = 7 then .contained
  else if g == .none then .corrected
  else g

/-- The bits of FSTAT that events latch (Table 12-3). -/
def eventBit (b : Nat) : Bool := decide (3 ≤ b ∧ b ≤ 29)

/-- The class of an event on an error line of the engine (Table 8-9a). -/
def engineGrade (g : Grade) : EngineLine → Grade
  | .word => if g = .corrected ∨ g = .none then .corrected else .contained
  | .lane _ => .contained
  | .sequencer => .contained

/-- An error line of the engine (Table 8-9a): a double error of the word code initialises the tile, a lane result that is not finite replaces
its member, and a fault of the step sequencer stops the engine. A tile whose uncorrectable errors make the source severe is withdrawn
(R197). -/
def engineFault (g : Grade) (line : EngineLine) (k : Nat) (s : State) : State :=
  let c := engineGrade g line
  let event := fun (ev : Nat) (st : State) => raise 16 c ev (k + 1) st
  match line, tileOf s k with
  | .sequencer, _ => stopEngine (raise 16 c 4 0 s)
  | .word, some t => tileWord (c != .corrected) false t k s
  | .lane m, some t =>
    let q := takeFree (countBy 43 1 s)
    event 7 (modTile t (fun r => { r with members := replaceMembers s q.1 t (fun i _ => i != m.val) r.members }) q.2)
  | .word, none => event (if c = .corrected then 5 else 6) (count (if c = .corrected then 41 else 42) s)
  | .lane _, none => event 7 s

/-- An error line reaches the collector (R287 to R290). -/
def takeFault (b : Nat) (g : Grade) (k : Option Nat) (line : EngineLine) (s : State) : State :=
  if b = 16 then engineFault g line (k.getD 16) s
  else if b = 27 && g == .contained then enterSafe 0xFE false s
  else if eventBit b then raise b (sourceGrade b g) 0xFE ((k.map (· + 1)).getD 0) s
  else s

/-- FAULT_EVENT (R287, R288, R289, R290). -/
def execFaultEvent (source : Fin 32) (grade : Grade) (level : Option Lvl) (line : EngineLine) (s : State) : Out :=
  .next (takeFault source.val grade (level.map (·.val)) line s)

/-- The first instant at which a severe source stops being severe (R289). -/
def severeEndAt (s : State) (b : Nat) : Nat :=
  let r := sourceRec s b
  let n := s.parN (0x0140 + b)
  let w := sec (s.parN (0x0160 + b))
  max (r.severeAt + w) (if r.events.length < n then 0 else r.events.getD (r.events.length - n) 0 + w)

/-- A source stops being severe; the reaction of CURRENT ends with it (R289, Table 12-5). -/
def endSevere (b : Nat) (s : State) : State :=
  if !(sourceRec s b).severe then s
  else
    let s := advanceTo (severeEndAt s b) s
    let s := modSource b (fun r => { r with severe := false, events := windowEvents s b }) s
    if b = 21 then { s with flt := { s.flt with halfHall := false } } else s

/-- SEVERE_END (R289). -/
def execSevereEnd (source : Fin 32) (s : State) : Out := .next (endSevere source.val s)

/-- An injection reaches its end and is disarmed; its error line goes inactive (R291, R292). -/
def endInjection (id : Byte) (s : State) : State :=
  match s.flt.injections.find? (·.id == id) with
  | none => s
  | some i =>
    match i.ends with
    | none => s
    | some t =>
      let s := advanceTo t s
      let left := s.flt.injections.filter (·.id != id)
      let on := left.any fun j => j.kind == 1 && j.target == i.target
      let s := { s with flt := { s.flt with injections := left } }
      if i.kind = 1 then modSource i.target.toNat (fun r => { r with active := on }) s else s

/-- INJECTION_END (R292). -/
def execInjectionEnd (id : Byte) (s : State) : Out := .next (endInjection id s)

end Sys2Proof.Machine
end

