-- ==== Sys2Proof/Machine/Injection.lean ====
section
/-! DEFINITION. FAULT_INJECT (R291, R292, R401). -/

namespace Sys2Proof.Machine

/-- The pairs of KIND and TARGET of Table 18-6. -/
def injectTarget (kind target : Nat) : Bool :=
  (kind == 1 && decide (target ≤ 31))
  || (kind == 2 && (decide (0x0101 ≤ target ∧ target ≤ 0x0110) || decide (0x0120 ≤ target ∧ target ≤ 0x0122)
        || decide (0x0131 ≤ target ∧ target ≤ 0x0140)))
  || (kind == 3 && (decide (0x0201 ≤ target ∧ target ≤ 0x0210) || decide (0x0220 ≤ target ∧ target ≤ 0x0222)))

/-- An offset on the comparator of cell k + 1, in steps of 5 mV, moves the voltage that it sees past a limit: the guard acts after its filter time
(R95, R96, R291, Table 18-6). -/
def guardOffset (k : Nat) (s : State) : State :=
  let v := cellV s k * 1000
  let q := injected (0x0131 + k) s
  let u := v + ((q.1 * 5 : Int) : Rat)
  let g := s.lad.guard
  if (s.lad.guard.ov : Rat) < u then guardCompares k .overVoltage (advanceTo (s.clk.now + us 100) s)
  else if u < (g.uv : Rat) then guardCompares k .underVoltage (advanceTo (s.clk.now + us 100) s)
  else s

/-- What an injected error line brings about at its block (R292, Table 12-5): the event, its class and its reaction as a real one has them. FAULT_INJECT
names no level, channel or port and no class, so the event is the contained one of the whole shelf; where Table 12-5 names a reaction of a level, a
channel or a port only, the event stands alone (DESIGN CHOICE, log entry 54). -/
def lineEvent (b : Nat) (s : State) : State :=
  if b = 27 then enterSafe 0xFF true s
  else if b = 21 then (if s.meas.shuntFail then raise 21 .contained 0xFF 0 s else failShunt s)
  else if b = 19 then (if s.clk.shoreXtal then loseShoreCrystal s else raise 19 .contained 0xFF 0 s)
  else if b = 16 then stopEngine (raise 16 .contained 4 0 s)
  else if b = 6 then loseToken s
  else if b = 13 then journalRefused s
  else if b = 12 then recordLost s
  else if b = 3 then raise 3 .none 0xFF 0 s
  else if 3 ≤ b ∧ b ≤ 29 then raise b .contained 0xFF 0 s
  else s

/-- Arms an injection (R291, R292): an error line is raised at once with its mark; with a stated time it stays active until
INJECTION_END; an offset or a corruption given once acts on the next sample or word. -/
def arm (target : BitVec 16) (kind : Byte) (value duration : BitVec 32) (s : State) : State :=
  let b := target.toNat
  let ends := if duration = 0 then none else some (s.clk.now + ms duration.toNat)
  let i : Injection := ⟨s.flt.nextInject, target, kind, value, ends⟩
  let keep := !(kind == 1 && duration == 0)
  let s := { s with flt := { s.flt with nextInject := s.flt.nextInject + 1, injections := if keep then s.flt.injections ++ [i] else s.flt.injections } }
  if kind = 1 then marked true (lineEvent b) (if keep then modSource b (fun r => { r with active := true }) s else s)
  else if b = 0x0220 then readCorrupted s
  else if kind = 2 ∧ 0x0131 ≤ b then guardOffset (b - 0x0131) s
  else s

/-- FAULT_INJECT as a state change: REFUSED outside Factory, BAD_FIELD for a target Table 18-6 does not list. -/
def faultInjectOp (req : Req) (target : BitVec 16) (kind : Byte) (value duration : BitVec 32) (s : State) : State :=
  runCommand req 0x0106 (.atLevel .service) (fun s =>
    if s.key.life ≠ .factory then refuse req 0x0106 .state s
    else if injectTarget kind.toNat target.toNat then
      answer req 0x0106 0x00 (bvBytes 1 s.flt.nextInject) (arm target kind value duration s)
    else answer req 0x0106 0x11 [] s) s

/-- FAULT_INJECT (R291, R401). -/
def execFaultInject (req : Req) (target : BitVec 16) (kind : Byte) (value duration : BitVec 32) (s : State) : Out :=
  .next (faultInjectOp req target kind value duration s)

end Sys2Proof.Machine
end

