-- ==== Sys2Proof/Machine/MeasureCmd.lean ====
section
/-! DEFINITION. The measurement commands, group 0x04 (R323). -/

namespace Sys2Proof.Machine

/-- The response of MEAS_READ (Table 14-5); an absent level appears in no report and reads 0 (R15). -/
def measFields (s : State) : List Byte :=
  (List.range 16).flatMap (fun k => leBytes 4 (if present s k then sampleWord (s.meas.words.getD k CellWord.reset) k else 0))
  ++ leBytes 4 (currentWord s) ++ leBytes 2 (reportNat 16 (s.meas.stack * 100)) ++ leBytes 2 (reportNat 16 (s.meas.ladderOut * 100))
  ++ leBytes 8 s.meas.cellAt

/-- MEAS_READ as a state change. -/
def measReadOp (req : Req) (s : State) : State := runCommand req 0x0401 (.atLevel .monitor) (reply req 0x0401 measFields) s

/-- MEAS_READ (R323). -/
def execMeasRead (req : Req) (s : State) : Out := .next (measReadOp req s)

/-- One input of NTC_READ: 0x8000 while invalid or unassigned (Table 14-5). -/
def ntcBytes (s : State) (j : Nat) : List Byte :=
  let n := ntcRec s j
  match n.temp with
  | some t => if n.invalid || n.faulted || !ntcUsed s j then [0x00, 0x80] else leInt 2 (roundRat (t * 100))
  | none => [0x00, 0x80]

/-- NTC_READ as a state change. -/
def ntcReadOp (req : Req) (s : State) : State :=
  runCommand req 0x0402 (.atLevel .monitor) (reply req 0x0402 fun s => (List.range 24).flatMap (ntcBytes s)) s

/-- NTC_READ (R323). -/
def execNtcRead (req : Req) (s : State) : Out := .next (ntcReadOp req s)

/-- The response of SENSE_STATUS (Table 14-5). -/
def senseFields (s : State) : List Byte :=
  leBytes 4 (senseWord s)
  ++ (List.range 16).flatMap fun k => leBytes 2 (if present s k then reportNat 16 ((stepRec s k).rStep * 1000) else 0)

/-- SENSE_STATUS as a state change. -/
def senseStatusOp (req : Req) (s : State) : State := runCommand req 0x0403 (.atLevel .monitor) (reply req 0x0403 senseFields) s

/-- SENSE_STATUS (R323). -/
def execSenseStatus (req : Req) (s : State) : Out := .next (senseStatusOp req s)

/-- One bin of SWITCH_BINS: resistance, age in days, saturating, and whether it is current (Table 14-5). -/
def binBytes (s : State) (b : Bin) : List Byte :=
  leBytes 2 (reportNat 16 b.ohm) ++ leBytes 1 (match b.stamps.head? with | some t => min 255 ((s.clk.ring - t) / sec 86400) | none => 255)
  ++ leBytes 1 (bit (binCurrent s b) 0)

/-- SWITCH_BINS as a state change: BAD_FIELD for an absent level. -/
def switchBinsOp (req : Req) (level : Byte) (s : State) : State :=
  runCommand req 0x0404 (.atLevel .monitor) (fun s =>
    let k := level.toNat - 1
    if level = 0 ∨ 16 < level.toNat ∨ present s k = false then answer req 0x0404 0x11 [] s
    else reply req 0x0404 (fun s => (s.meas.binIn.getD k []).flatMap (binBytes s) ++ (s.meas.binBy.getD k []).flatMap (binBytes s)) s) s

/-- SWITCH_BINS (R323). -/
def execSwitchBins (req : Req) (level : Byte) (s : State) : Out := .next (switchBinsOp req level s)

/-- SENSE_CLEAR as a state change: SHUNT_FAIL by bit 29, TAP_OPEN by bits 16 to 0; a cleared tap is tested at the next start (R137,
R152). -/
def senseClearOp (req : Req) (mask : BitVec 32) (s : State) : State :=
  runCommand req 0x0405 ⟨.service, false, false, true⟩ (fun s =>
    let taps : BitVec 17 := mask.setWidth 17 &&& s.meas.tapOpen
    let fail := mask.getLsbD 29 && s.meas.shuntFail
    let s := { s with meas := { s.meas with shuntFail := s.meas.shuntFail && !fail, tapOpen := s.meas.tapOpen &&& ~~~taps,
                                            tapRetest := s.meas.tapRetest ||| taps, clipSince := if fail then none else s.meas.clipSince } }
    let s := holdMram s
    answer req 0x0405 0x00 (leBytes 4 (taps.toNat + bit fail 29)) s) s

/-- SENSE_CLEAR (R323). -/
def execSenseClear (req : Req) (mask : BitVec 32) (s : State) : Out := .next (senseClearOp req mask s)

end Sys2Proof.Machine
end

