-- ==== Sys2Proof/Machine/RecorderCmd.lean ====
section
/-! DEFINITION. The journal and recorder commands, group 0x09 (R329, R344, R347 to R349). -/

namespace Sys2Proof.Machine

/-- The newest sequence number; one before the first record when there is none. -/
def newestSeq (s : State) : BitVec 32 := ((s.nv.recs.head?).map (·.seq)).getD (s.nv.recNext - 1)

/-- The oldest valid sequence number; that of the next record when there is none. -/
def oldestSeq (s : State) : BitVec 32 := (((s.nv.recs.filter (·.intact)).getLast?).map (·.seq)).getD s.nv.recNext

/-- The full ring time that a record carries. -/
def fullTime (r : Rec) : Option Nat := if r.intact && fullTimeKind r.kind && !r.rflags.getLsbD 1 then some (fieldAt r.payload 0 8) else none

/-- The 64-bit value congruent to a 32-bit one and nearest to an estimate (R349). -/
def nearestTime (est v : Nat) : Nat :=
  let off := (v + 2 ^ 32 - est % 2 ^ 32) % 2 ^ 32
  if 2 ^ 31 ≤ off ∧ 2 ^ 32 ≤ est + off then est + off - 2 ^ 32 else est + off

/-- The extended time of a record, with the records before it, newest first; a record that carries a full ring time has that
(R348, R349). -/
def extendedTime (r : Rec) (earlier : List Rec) : Option Nat :=
  if !r.intact || r.rflags.getLsbD 1 || r.rflags.getLsbD 2 then none
  else
    match fullTime r with
    | some t => some t
    | none =>
      match earlier.find? fun q => (fullTime q).isSome && q.cycles == r.cycles with
      | none => none
      | some q =>
        let d := (r.opsec - q.opsec).toNat
        if 600 < d then none else some (nearestTime ((fullTime q).getD 0 + sec d) r.rtime.toNat)

/-- The records that have an extended time, newest first. -/
def timedRecords : List Rec → List (BitVec 32 × Nat)
  | [] => []
  | r :: rs =>
    match extendedTime r rs with
    | some t => (r.seq, t) :: timedRecords rs
    | none => timedRecords rs

/-- Sets the cursor and answers with it (Table 14-10). -/
def putCursor (req : Req) (status : Byte) (c : BitVec 32) (s : State) : State :=
  answer req 0x0901 status (bvBytes 4 c ++ bvBytes 4 (oldestSeq s) ++ bvBytes 4 (newestSeq s))
    (modMail req.mb (fun m => { m with cursor := some c }) s)

/-- MODE 2: a sequence number (R348, R7). -/
def seekSeq (req : Req) (c : BitVec 32) (s : State) : State :=
  if newer c (newestSeq s) then answer req 0x0901 0x11 [] s
  else if newer (oldestSeq s) c then putCursor req 0x21 (oldestSeq s) s
  else putCursor req 0x00 c s

/-- MODE 3: a ring time; BAD_FIELD where every timed record lies before it (R348). -/
def seekTime (req : Req) (key : Nat) (s : State) : State :=
  let l := timedRecords s.nv.recs
  match l.reverse.find? fun p => decide (key ≤ p.2) with
  | some p => putCursor req 0x00 p.1 s
  | none => answer req 0x0901 0x11 [] s

/-- REC_SEEK as a state change. -/
def recSeekOp (req : Req) (mode : Byte) (key : BitVec 64) (s : State) : State :=
  runCommand req 0x0901 (.atLevel .monitor) (fun s =>
    if mode = 0 then putCursor req 0x00 (oldestSeq s) s
    else if mode = 1 then putCursor req 0x00 (if s.nv.recs.isEmpty then oldestSeq s else newestSeq s) s
    else if mode = 2 then seekSeq req (key.setWidth 32) s
    else if mode = 3 then seekTime req key.toNat s
    else answer req 0x0901 0x11 [] s) s

/-- REC_SEEK (R348). -/
def execRecSeek (req : Req) (mode : Byte) (key : BitVec 64) (s : State) : Out := .next (recSeekOp req mode key s)

/-- A record as REC_READ returns it (Table 15-4); a damaged one keeps its SEQ alone (Table 15-5). -/
def recordOut (r : Rec) : List Byte :=
  let b := if r.intact then
      bvBytes 4 r.seq ++ bvBytes 4 r.opsec ++ bvBytes 4 r.cycles ++ bvBytes 4 r.rtime ++ [r.kind, r.source, r.rflags.setWidth 8, 0]
      ++ fitBytes 40 r.payload
    else fitBytes 60 (bvBytes 4 r.seq)
  b ++ bvBytes 4 (crc32c b)

/-- The records that a read takes under an armed corruption of the recorder (R339, R401): corrected, or the first of them damaged. -/
def recCorrupted (l : List Rec) (s : State) : State :=
  match l with
  | [] => s
  | r :: _ =>
    let page := 0x4000 + r.seq.toNat % 65536 / 4
    let q := checkedRead page s
    if q.1 then
      remapPage page (raiseWith 12 .contained 1 0 true false
        { q.2 with nv := { q.2.nv with recs := q.2.nv.recs.map fun x => if x.seq = r.seq then { x with intact := false } else x } })
    else q.2

/-- REC_READ as a state change: LAPPED moves the cursor to the oldest valid record (R348). -/
def recReadOp (req : Req) (num : Byte) (s : State) : State :=
  runCommand req 0x0902 (.atLevel .monitor) (fun s =>
    if num = 0 ∨ 3 < num.toNat then answer req 0x0902 0x11 [] s
    else
      let c := (mail s req.mb).cursor.getD (oldestSeq s)
      if newer (oldestSeq s) c then
        answer req 0x0902 0x21 (0 :: bvBytes 4 (oldestSeq s)) (modMail req.mb (fun m => { m with cursor := some (oldestSeq s) }) s)
      else
        let take := fun (st : State) => (st.nv.recs.reverse.filter fun r => !newer c r.seq).take num.toNat
        let s := recCorrupted (take s) s
        let l := take s
        let n := c + BitVec.ofNat 32 l.length
        answer req 0x0902 0x00 (leBytes 1 l.length ++ bvBytes 4 n ++ l.flatMap recordOut)
          (modMail req.mb (fun m => { m with cursor := some n }) s)) s

/-- REC_READ (R348). -/
def execRecRead (req : Req) (num : Byte) (s : State) : Out := .next (recReadOp req num s)

/-- The response of JOURNAL_INFO; on an empty journal FILL is 0 and SEQ 0xFFFFFFFF (R403). -/
def journalFields (s : State) : List Byte :=
  leBytes 1 (bit s.nv.activeB 0) ++ leBytes 1 (fillPercent s) ++ bvBytes 4 s.nv.jseq ++ bvBytes 4 s.nv.compactions

/-- JOURNAL_INFO as a state change. -/
def journalInfoOp (req : Req) (s : State) : State := runCommand req 0x0903 (.atLevel .monitor) (reply req 0x0903 journalFields) s

/-- JOURNAL_INFO (R329, R403). -/
def execJournalInfo (req : Req) (s : State) : Out := .next (journalInfoOp req s)

/-- JOURNAL_COMPACT as a state change: BUSY during a compaction; on an empty journal there is nothing to write, and it ends at once
(R344, log entry 17). -/
def journalCompactOp (req : Req) (s : State) : State :=
  runCommand req 0x0904 ⟨.service, false, false, true⟩ (fun s =>
    if s.nv.compact.isSome then answer req 0x0904 0x02 [] s
    else if s.nv.empty then finish req 0x00 (leBytes 1 0) (accept req 0x0904 0x01 [] s)
    else accept req 0x0904 0x01 [] { s with nv := { s.nv with compact := some (1, s.nv.jseq), compactReq := some req } }) s

/-- JOURNAL_COMPACT (R344). -/
def execJournalCompact (req : Req) (s : State) : Out := .next (journalCompactOp req s)

/-- CAPTURE as a state change: BUSY during a capture, its hold-off, and outside Run (R347). -/
def captureOp (req : Req) (s : State) : State :=
  runCommand req 0x0905 (.atLevel .operator) (fun s =>
    if s.clk.pstate ≠ .run ∨ s.nv.capture ≠ .idle then answer req 0x0905 0x02 [] s
    else
      let s := beginCapture 0x80 (accept req 0x0905 0x01 [] s)
      { s with nv := { s.nv with capReq := some req } }) s

/-- CAPTURE (R347). -/
def execCapture (req : Req) (s : State) : Out := .next (captureOp req s)

end Sys2Proof.Machine
end

