-- ==== Sys2Proof/Machine/SecurityCmd.lean ====
section
/-! DEFINITION. Security and life-cycle commands, group 0x0A (R330, R355 to R364). -/

namespace Sys2Proof.Machine

/-! Sessions (R305, R359) -/

/-- The highest level of a mailbox (Table 13-7): Maker only in Returned, and Monitor alone in Retired (Table 16-2). -/
def maxLevel (s : State) (mb : Mailbox) : Nat :=
  if s.key.life = .retired then 1
  else match mb with
    | .host => if s.key.life = .returned then 4 else 3
    | .uart => if s.key.life = .returned then 4 else 3
    | .ring => 3
    | .twb => 2

/-- The credential of a level at a mailbox: that of its latest AUTH_CHALLENGE, from which a new one acts (R359, R360). -/
def credential (s : State) (mb : Mailbox) : Access → Option (List Byte)
  | .monitor => none
  | .operator => (mail s mb).nonceOp
  | .service => (mail s mb).nonceSv
  | .maker => some Config.makerCredential

/-- AUTH_CHALLENGE is refused on this mailbox: 8 AUTH_RESPONSE have failed within 60 s (R359). -/
def lockedOut (s : State) (mb : Mailbox) : Bool := (mail s mb).lockUntil.any fun t => decide (s.clk.now < t)

/-- A fresh NONCE for the mailbox; its value is free (R359). -/
def giveNonce (req : Req) (s : State) : State :=
  let p := takeFree s
  let n := fitBytes 32 (Config.freeBytes p.1)
  answer req 0x0A01 0x00 n (modMail req.mb (fun m => { m with nonce := some (n, s.clk.now), lastNonce := n, nonceOp := s.key.opCred, nonceSv := s.key.svCred }) p.2)

/-- AUTH_CHALLENGE as a state change: REFUSED above the mailbox maximum and during the lockout (R330, R359). -/
def authChallengeOp (req : Req) (level : Byte) (s : State) : State :=
  runCommand req 0x0A01 (.atLevel .monitor) (fun s =>
    if level.toNat < 2 then answer req 0x0A01 0x11 [] s
    else if maxLevel s req.mb < level.toNat then refuse req 0x0A01 .maximum s
    else if lockedOut s req.mb = true then refuse req 0x0A01 .lockout s
    else giveNonce req s) s

/-- AUTH_CHALLENGE (R359). -/
def execAuthChallenge (req : Req) (level : Byte) (s : State) : Out := .next (authChallengeOp req level s)

/-- The 42 bytes of a session MAC (R359). -/
def macInput (nonce : List Byte) (level : Nat) (mb : Mailbox) : List Byte :=
  fitBytes 32 nonce ++ leBytes 1 level ++ bvBytes 8 Config.deviceId ++ leBytes 1 (Mailbox.idx mb)

/-- The MAC is that of the open nonce under the level's credential; a nonce is valid for 1 s (R330, R359). -/
def macValid (s : State) (mb : Mailbox) (a : Access) (mac : List Byte) : Bool :=
  match (mail s mb).nonce, credential s mb a with
  | some n, some c => decide (s.clk.now ≤ n.2 + sec 1) && hmac c (macInput n.1 (Access.code a) mb) == fitBytes 32 mac
  | _, _ => false

/-- A failed AUTH_RESPONSE counts towards the lockout (R359). -/
def failAuth (mb : Mailbox) (s : State) : State :=
  let recent := s.clk.now :: (mail s mb).fails.filter fun t => decide (s.clk.now < t + sec 60)
  if 8 ≤ recent.length then modMail mb (fun m => { m with fails := [], lockUntil := some (s.clk.now + sec 60) }) s
  else modMail mb (fun m => { m with fails := recent }) s

/-- AUTH_RESPONSE as a state change: the nonce is used up; a valid MAC raises the session level; every failure is REFUSED, a LEVEL outside 2 to 4 too
(R305, R330, R359). -/
def authResponseOp (req : Req) (level : Byte) (mac : List Byte) (s : State) : State :=
  runChecked req 0x0A02 (.atLevel .monitor) (decide (mac.length = 32)) true (fun s =>
    let a := (accessOf level.toNat).getD .monitor
    let ok := decide (2 ≤ level.toNat ∧ level.toNat ≤ maxLevel s req.mb) && macValid s req.mb a mac
    let s := modMail req.mb (fun m => { m with nonce := none }) s
    if ok then answer req 0x0A02 0x00 [level] (modMail req.mb (fun m => { m with level := if Access.code m.level < level.toNat then a else m.level }) s)
    else refuse req 0x0A02 (if level.toNat ≤ maxLevel s req.mb then .mac else .maximum) (failAuth req.mb s)) s

/-- AUTH_RESPONSE (R359). -/
def execAuthResponse (req : Req) (level : Byte) (mac : List Byte) (s : State) : Out := .next (authResponseOp req level mac s)

/-- AUTH_LOCKOUT_END (R359). -/
def endLockout (mb : Mailbox) (s : State) : State :=
  match (mail s mb).lockUntil with
  | some t => modMail mb (fun m => { m with lockUntil := none }) (advanceTo t s)
  | none => s

/-- AUTH_LOCKOUT_END (R359). -/
def execAuthLockoutEnd (mb : Mailbox) (s : State) : Out := .next (endLockout mb s)

/-- A nonce becomes invalid 1 s after it was given (R330). -/
def expireNonce (mb : Mailbox) (s : State) : State :=
  match (mail s mb).nonce with
  | some n => modMail mb (fun m => { m with nonce := none }) (advanceTo (n.2 + sec 1) s)
  | none => s

/-- NONCE_EXPIRY (R330). -/
def execNonceExpiry (mb : Mailbox) (s : State) : Out := .next (expireNonce mb s)

/-! Identity (R363, R364) -/

/-- A private number of a curve, from a draw. -/
def scalarOf (n : Nat) : Nat := Config.identityScalar n % (p256.n - 1) + 1

/-- PUBKEY: x then y, each 32 bytes big-endian (R364); before the first key pair it is not stated (log entry 8). -/
def pubKey (s : State) : List Byte :=
  match s.key.identity with
  | none => fitBytes 64 (Config.freeBytes 1)
  | some n => match ecMul p256 256 (scalarOf n) p256.base with
    | some q => beBytes 32 q.1 ++ beBytes 32 q.2
    | none => List.replicate 64 0

/-- SIG: ECDSA P-256 over the SHA-256 digest of CHALLENGE and DEVICE_ID, r followed by s; the ephemeral number is free (R364, log entry 8). -/
def identitySig (draw : Nat) (challenge : List Byte) (s : State) : List Byte :=
  match s.key.identity with
  | none => fitBytes 64 (Config.freeBytes draw)
  | some n =>
    let q := ecdsaSign p256 (scalarOf n) (scalarOf (2 * draw + 1)) (sha256 (fitBytes 32 challenge ++ bvBytes 8 Config.deviceId))
    beBytes 32 q.1 ++ beBytes 32 q.2

/-- IDENTITY as a state change. -/
def identityOp (req : Req) (challenge : List Byte) (s : State) : State :=
  runChecked req 0x0A03 (.atLevel .monitor) (decide (challenge.length = 32)) true (fun s =>
    let p := takeFree s
    answer req 0x0A03 0x00 (bvBytes 8 Config.deviceId ++ identitySig p.1 challenge s) p.2) s

/-- IDENTITY (R364). -/
def execIdentity (req : Req) (challenge : List Byte) (s : State) : Out := .next (identityOp req challenge s)

/-- IDENTITY_KEY as a state change. -/
def identityKeyOp (req : Req) (s : State) : State := runCommand req 0x0A04 (.atLevel .monitor) (reply req 0x0A04 pubKey) s

/-- IDENTITY_KEY (R364). -/
def execIdentityKey (req : Req) (s : State) : Out := .next (identityKeyOp req s)

/-! Keys (R360) -/

/-- K(w): the first 16 bytes of HMAC-SHA-256 under the Service credential over "SZ716-WRAP" and the nonce (R360). -/
def wrapKey (s : State) (nonce : List Byte) : List Byte :=
  (hmac (s.key.svCred.getD (List.replicate 32 0)) ([0x53, 0x5A, 0x37, 0x31, 0x36, 0x2D, 0x57, 0x52, 0x41, 0x50] ++ nonce)).take 16

/-- The plaintext of a blob whose tag is valid, under the nonce of the session's latest AUTH_CHALLENGE; a rack key ends in 16 bytes of
0x00 (R360). -/
def unwrap (s : State) (mb : Mailbox) (slot : Byte) (blob : List Byte) : Option (List Byte) :=
  let nonce := (mail s mb).lastNonce
  let k := wrapKey s nonce
  let ct := bytesAt blob 0 32
  let plain := gcmCrypt k (nonce.take 12) ct
  if nonce.isEmpty || gcmTag k (nonce.take 12) (slot :: bvBytes 8 Config.deviceId) ct != bytesAt blob 32 16 then none
  else if slot = 1 ∧ plain.drop 16 ≠ List.replicate 16 0 then none
  else some plain

/-- A key takes its place: a rack key is held pending, and a new pack key acts at a fresh challenge within 1 s; with a Service credential
sessions without authentication end (R360, Table 16-2). -/
def installKey (slot : Byte) (k : List Byte) (s : State) : State :=
  if slot = 1 then { s with key := { s.key with rackPend := some (k.take 16) } }
  else if slot = 2 then
    let s := { s with key := { s.key with packKey := some k, packAuthDue := some (s.clk.now + sec 1) } }
    if s.clk.pstate = .run ∨ s.clk.pstate = .watch then beginAttempt s else s
  else if slot = 3 then { s with key := { s.key with opCred := some k } }
  else endStaged { s with key := { s.key with svCred := some k } }

/-- KEY_INSTALL as a state change; an absent slot cannot be told from a refused one (R330, R360, R361). -/
def keyInstallOp (req : Req) (slot rsv : Byte) (blob : List Byte) (s : State) : State :=
  runChecked req 0x0A05 ⟨.service, false, false, true⟩ (decide (blob.length = 48)) (rsv == 0) (fun s =>
    if s.key.life ≠ .provisioned ∧ s.key.life ≠ .fielded then answer req 0x0A05 0x12 [] s
    else if slot = 0 ∨ 4 < slot.toNat then refuse req 0x0A05 .blob s
    else match unwrap s req.mb slot blob with
      | none => refuse req 0x0A05 .blob s
      | some k => answer req 0x0A05 0x00 [] (installKey slot k s)) s

/-- KEY_INSTALL (R360). -/
def execKeyInstall (req : Req) (slot rsv : Byte) (blob : List Byte) (s : State) : Out := .next (keyInstallOp req slot rsv blob s)

/-! Life-cycle (R355 to R358) -/

/-- The state of a code. -/
def lifeOf (n : Nat) : Option LifeCycle := [.blank, .factory, .provisioned, .fielded, .returned, .retired][n]?

/-- The transitions of Table 16-3 with their conditions; none while an entry into Returned is under way. -/
def lifeAllowed (s : State) (goal : LifeCycle) : Bool :=
  let closes := bypassAllowed (parkAll 0x1 s)
  if s.key.erasing then false else
  match s.key.life, goal with
  | .blank, .factory => true
  | .factory, .provisioned => true
  | .provisioned, .fielded => (s.key.rackKey.or s.key.rackPend).isSome && s.key.packKey.isSome && s.key.opCred.isSome && s.key.svCred.isSome
  | .provisioned, .returned => closes
  | .fielded, .returned => closes
  | .returned, .provisioned => true
  | .factory, .retired => closes
  | .provisioned, .retired => closes
  | .fielded, .retired => closes
  | .returned, .retired => closes
  | _, _ => false

/-- The 50-byte message of an authorisation (R356). -/
def lifeMessage (s : State) (goal : LifeCycle) : List Byte :=
  let early := s.key.life == .blank || s.key.life == .factory
  [0x53, 0x5A, 0x37, 0x31, 0x36, 0x2D, 0x4C, 0x43] ++ bvBytes 8 Config.deviceId ++ (if early then List.replicate 32 0 else sha256 (pubKey s))
  ++ leBytes 1 s.key.life.code ++ leBytes 1 goal.code

/-- The AUTH field is a signature of Loircen's life-cycle key over the message (R356, R366). -/
def lifeSigned (s : State) (goal : LifeCycle) (auth : List Byte) : Bool :=
  ecdsaVerify p384 (Config.loircenKey 1) (sha256 (lifeMessage s goal)) (beNat (bytesAt auth 0 48)) (beNat (bytesAt auth 48 48))

/-- A new identity key pair (R364). -/
def newIdentity (s : State) : State :=
  let p := takeFree s
  { p.2 with key := { p.2.key with identity := some p.1 } }

/-- Every injection is disarmed when the shelf leaves Factory (R292). -/
def disarmAll (s : State) : State :=
  let drop := fun (st : State) (i : Injection) => if i.kind = 1 then modSource i.target.toNat (fun r => { r with active := false }) st else st
  let s' := s.flt.injections.foldl drop s
  { s' with flt := { s'.flt with injections := [] } }

/-- The effects on entry (Table 16-3, R358); of Returned, the first two steps and the record of the counters: the erasure follows (R357). -/
def enterLife (goal : LifeCycle) (s : State) : State :=
  let s := if s.key.life = .factory then disarmAll s else s
  match goal with
  | .blank => s
  | .factory => { s with key := { s.key with life := .factory } }
  | .provisioned =>
    let demote := fun (m : MailS) => { m with level := if m.level == .maker then .monitor else m.level }
    let s := mapMail demote (newIdentity s)
    { s with key := { s.key with life := .provisioned } }
  | .fielded => { s with key := { s.key with life := .fielded } }
  | .returned =>
    let s := parkAndClose 0x1 (handOverFirst s)
    recordCounters { s with key := { s.key with erasing := true } }
  | .retired =>
    let s := parkAndClose 0x1 (handOverFirst s)
    let s := mapMail (fun m => { m with level := .monitor }) s
    { s with key := { s.key with life := .retired, rackKey := none, rackPend := none, packKey := none, opCred := none, svCred := none } }

/-- The erasure of an entry into Returned ends, and with it the command that asked for it (R357). -/
def endErasure (req : Req) (s : State) : State :=
  let was := hostReady s
  let s := noteReady was (endStaged (completeErasure s))
  finish req 0x00 (leBytes 1 s.key.life.code) s

/-- LIFECYCLE_SET as a state change (R330, R356): whatever bars it is answered REFUSED. Of an entry into Returned the final response comes after
the erasure (R357). -/
def lifecycleSetOp (req : Req) (target rsv : Byte) (auth : List Byte) (s : State) : State :=
  runChecked req 0x0A06 ⟨.service, false, false, true⟩ (decide (auth.length = 96)) (rsv == 0) (fun s =>
    match lifeOf target.toNat with
    | none => refuse req 0x0A06 .transition s
    | some goal =>
      if lifeAllowed s goal && lifeSigned s goal auth then
        let was := hostReady s
        let s := noteReady was (endStaged (enterLife goal (accept req 0x0A06 0x01 [] s)))
        if s.key.erasing then s else finish req 0x00 (leBytes 1 s.key.life.code) s
      else refuse req 0x0A06 (if lifeAllowed s goal then .signature else .transition) s) s

/-- LIFECYCLE_SET (R356 to R358). -/
def execLifecycleSet (req : Req) (target rsv : Byte) (auth : List Byte) (s : State) : Out := .next (lifecycleSetOp req target rsv auth s)

end Sys2Proof.Machine
end

