-- ==== Sys2Proof/Machine/Mailbox.lean ====
section
/-! DEFINITION. The command processor at the mailboxes: taking requests in turn, the checks of Table 13-9, and responses (R303 to R309, R361,
R362). -/

namespace Sys2Proof.Machine

/-! The opcodes -/

/-- What the checks of Table 13-9 know of a command: its opcode, the bounds of its payload, and its lowest level (Tables 14-1 to 14-13). -/
structure OpRow where
  op    : Nat
  lo    : Nat
  hi    : Nat
  least : Access
  deriving DecidableEq, Repr

/-- The rows of groups 0x01 to 0x06. -/
def opRowsLow : List OpRow :=
  [⟨0x0101, 0, 0, .monitor⟩, ⟨0x0102, 1, 1, .service⟩, ⟨0x0103, 0, 0, .monitor⟩, ⟨0x0104, 0, 0, .monitor⟩, ⟨0x0105, 4, 4, .service⟩,
   ⟨0x0106, 11, 11, .service⟩, ⟨0x0107, 2, 2, .service⟩, ⟨0x0201, 5, 244, .service⟩, ⟨0x0202, 4, 4, .service⟩, ⟨0x0203, 0, 0, .service⟩,
   ⟨0x0204, 3, 241, .monitor⟩, ⟨0x0205, 0, 0, .monitor⟩, ⟨0x0301, 0, 0, .monitor⟩, ⟨0x0302, 2, 2, .operator⟩, ⟨0x0303, 1, 1, .operator⟩,
   ⟨0x0304, 2, 2, .service⟩, ⟨0x0305, 0, 0, .operator⟩, ⟨0x0401, 0, 0, .monitor⟩, ⟨0x0402, 0, 0, .monitor⟩, ⟨0x0403, 0, 0, .monitor⟩,
   ⟨0x0404, 1, 1, .monitor⟩, ⟨0x0405, 4, 4, .service⟩, ⟨0x0501, 2, 2, .monitor⟩, ⟨0x0502, 0, 0, .monitor⟩, ⟨0x0503, 0, 0, .operator⟩,
   ⟨0x0601, 2, 2, .monitor⟩, ⟨0x0602, 2, 2, .monitor⟩, ⟨0x0603, 12, 236, .service⟩, ⟨0x0604, 1, 1, .monitor⟩]

/-- The rows of groups 0x07 to 0x0C; the level of 0x0C01, 0x0C02, 0x0C04 and 0x0C05 is that of COUNTER_ACCESS. -/
def opRowsHigh (counter : Access) : List OpRow :=
  [⟨0x0701, 0, 0, .monitor⟩, ⟨0x0702, 15, 15, .operator⟩, ⟨0x0703, 3, 3, .operator⟩, ⟨0x0704, 0, 0, .operator⟩, ⟨0x0705, 0, 0, .operator⟩,
   ⟨0x0706, 5, 244, .service⟩, ⟨0x0707, 8, 8, .service⟩, ⟨0x0708, 0, 0, .service⟩, ⟨0x0709, 0, 0, .monitor⟩, ⟨0x070A, 4, 244, .monitor⟩,
   ⟨0x0801, 0, 0, .monitor⟩, ⟨0x0802, 1, 1, .operator⟩, ⟨0x0803, 1, 1, .operator⟩, ⟨0x0804, 2, 2, .operator⟩, ⟨0x0805, 2, 2, .operator⟩,
   ⟨0x0806, 1, 1, .monitor⟩, ⟨0x0901, 9, 9, .monitor⟩, ⟨0x0902, 1, 1, .monitor⟩, ⟨0x0903, 0, 0, .monitor⟩, ⟨0x0904, 0, 0, .service⟩,
   ⟨0x0905, 0, 0, .operator⟩, ⟨0x0A01, 1, 1, .monitor⟩, ⟨0x0A02, 33, 33, .monitor⟩, ⟨0x0A03, 32, 32, .monitor⟩, ⟨0x0A04, 0, 0, .monitor⟩,
   ⟨0x0A05, 50, 50, .service⟩, ⟨0x0A06, 98, 98, .service⟩, ⟨0x0B01, 12, 236, .service⟩, ⟨0x0B02, 0, 0, .service⟩, ⟨0x0B03, 0, 0, .service⟩,
   ⟨0x0B04, 0, 0, .monitor⟩, ⟨0x0B05, 4, 4, .service⟩, ⟨0x0C01, 7, 7, counter⟩, ⟨0x0C02, 0, 0, counter⟩, ⟨0x0C03, 8, 8, .service⟩,
   ⟨0x0C04, 7, 7, counter⟩, ⟨0x0C05, 1, 1, counter⟩, ⟨0x0C06, 4, 4, .service⟩]

/-- The row of an opcode. -/
def opRow (op : Nat) (s : State) : Option OpRow := (opRowsLow ++ opRowsHigh (counterRules s).least).find? (·.op == op)

/-- A length that the command admits: CFG_READ takes whole identifiers, MODEL_WRITE and IMAGE_WRITE whole units of 8. -/
def OpRow.admits (r : OpRow) (n : Nat) : Bool :=
  decide (r.lo ≤ n ∧ n ≤ r.hi) && (if r.op = 0x0204 then n % 2 == 1 else if r.op = 0x0603 ∨ r.op = 0x0B01 then n % 8 == 4 else true)

/-- A byte of a payload. -/
def byteOf (p : List Byte) (o : Nat) : Byte := p.getD o 0

/-- A little-endian field of a payload. -/
def bitsOf (w : Nat) (p : List Byte) (o : Nat) : BitVec w := BitVec.ofNat w (fieldAt p o (w / 8))

/-- A command of groups 0x01 to 0x04, its payload p read by its layout. -/
def runLow (req : Req) (op : Nat) (p : List Byte) : State → State :=
  if op = 0x0101 then sysInfoOp req
  else if op = 0x0102 then sysResetOp req (byteOf p 0)
  else if op = 0x0103 then tempReadOp req
  else if op = 0x0104 then faultReadOp req
  else if op = 0x0105 then faultClearOp req (bitsOf 32 p 0)
  else if op = 0x0106 then faultInjectOp req (bitsOf 16 p 0) (byteOf p 2) (bitsOf 32 p 3) (bitsOf 32 p 7)
  else if op = 0x0107 then blockGateOp req (byteOf p 0) (byteOf p 1)
  else if op = 0x0201 then cfgStageOp req p
  else if op = 0x0202 then cfgCommitOp req (bitsOf 32 p 0)
  else if op = 0x0203 then cfgDiscardOp req
  else if op = 0x0204 then cfgReadOp req (byteOf p 0) ((List.range ((p.length - 1) / 2)).map fun i => bitsOf 16 p (1 + 2 * i))
  else if op = 0x0205 then cfgStateOp req
  else if op = 0x0301 then ladderStatusOp req
  else if op = 0x0302 then ladderParkOp req (bitsOf 16 p 0)
  else if op = 0x0303 then shelfBypassOp req (byteOf p 0)
  else if op = 0x0304 then levelClearOp req (bitsOf 16 p 0)
  else if op = 0x0305 then ladderCheckOp req
  else if op = 0x0401 then measReadOp req
  else if op = 0x0402 then ntcReadOp req
  else if op = 0x0403 then senseStatusOp req
  else if op = 0x0404 then switchBinsOp req (byteOf p 0)
  else if op = 0x0405 then senseClearOp req (bitsOf 32 p 0)
  else id

/-- A command of groups 0x05 to 0x08. -/
def runMiddle (req : Req) (op : Nat) (p : List Byte) : State → State :=
  if op = 0x0501 then cellAccountOp req (byteOf p 0) (byteOf p 1)
  else if op = 0x0502 then packInfoOp req
  else if op = 0x0503 then packAuthOp req
  else if op = 0x0601 then engineOutputOp req (byteOf p 0) (byteOf p 1)
  else if op = 0x0602 then spectrumOp req (byteOf p 0) (byteOf p 1)
  else if op = 0x0603 then modelWriteOp req (bitsOf 32 p 0) (p.drop 4)
  else if op = 0x0604 then modelInfoOp req (byteOf p 0)
  else if op = 0x0701 then rackStatusOp req
  else if op = 0x0702 then rackDispatchOp req (bitsOf 16 p 0) (bitsOf 64 p 2) (bitsOf 16 p 10) (bitsOf 16 p 12) (byteOf p 14)
  else if op = 0x0703 then rackBusOp req (bitsOf 16 p 0) (byteOf p 2)
  else if op = 0x0704 then holdupClearOp req
  else if op = 0x0705 then rackSleepOp req
  else if op = 0x0706 then rackStageOp req p
  else if op = 0x0707 then rackCommitOp req (bitsOf 64 p 0)
  else if op = 0x0708 then handoverOp req
  else if op = 0x0709 then ringStatusOp req
  else if op = 0x070A then relayOp req (byteOf p 0) (byteOf p 1) (bitsOf 16 p 2) (p.drop 4)
  else if op = 0x0801 then auxStatusOp req
  else if op = 0x0802 then railClearOp req (byteOf p 0)
  else if op = 0x0803 then efuseClearOp req (byteOf p 0)
  else if op = 0x0804 then efusePermitOp req (byteOf p 0) (byteOf p 1)
  else if op = 0x0805 then stepControlOp req (byteOf p 0) (byteOf p 1)
  else if op = 0x0806 then lastFaultOp req (byteOf p 0)
  else id

/-- A command of groups 0x09 to 0x0C. -/
def runHigh (req : Req) (op : Nat) (p : List Byte) : State → State :=
  if op = 0x0901 then recSeekOp req (byteOf p 0) (bitsOf 64 p 1)
  else if op = 0x0902 then recReadOp req (byteOf p 0)
  else if op = 0x0903 then journalInfoOp req
  else if op = 0x0904 then journalCompactOp req
  else if op = 0x0905 then captureOp req
  else if op = 0x0A01 then authChallengeOp req (byteOf p 0)
  else if op = 0x0A02 then authResponseOp req (byteOf p 0) (p.drop 1)
  else if op = 0x0A03 then identityOp req p
  else if op = 0x0A04 then identityKeyOp req
  else if op = 0x0A05 then keyInstallOp req (byteOf p 0) (byteOf p 1) (p.drop 2)
  else if op = 0x0A06 then lifecycleSetOp req (byteOf p 0) (byteOf p 1) (p.drop 2)
  else if op = 0x0B01 then imageWriteOp req (bitsOf 32 p 0) (p.drop 4)
  else if op = 0x0B02 then imageVerifyOp req
  else if op = 0x0B03 then imageRelayOp req
  else if op = 0x0B04 then imageStatusOp req
  else if op = 0x0B05 then activateOp req (bitsOf 32 p 0)
  else if op = 0x0C01 then counterReadOp req (byteOf p 0) (byteOf p 1) (byteOf p 2) (bitsOf 32 p 3)
  else if op = 0x0C02 then snapshotOp req
  else if op = 0x0C03 then snapOrderOp req (bitsOf 64 p 0)
  else if op = 0x0C04 then histReadOp req (byteOf p 0) (byteOf p 1) (byteOf p 2) (bitsOf 32 p 3)
  else if op = 0x0C05 then preciseReadOp req (byteOf p 0)
  else if op = 0x0C06 then traceReadOp req (bitsOf 32 p 0)
  else id

/-- A command by its opcode, between its trace markers (R398). -/
def runOpcode (req : Req) (op : Nat) (p : List Byte) (s : State) : State :=
  let s := traceMark 1 0 op 0 s
  let s := if op < 0x0500 then runLow req op p s else if op < 0x0900 then runMiddle req op p s else runHigh req op p s
  traceMark 2 0 op 0 s

/-! Taking a request (R307, R308) -/

/-- An answer with the header as received (Table 13-9). -/
def answerRaw (mb : Mailbox) (bs : List Byte) (status : Byte) (s : State) : State :=
  histFree 0 (pushEntry mb ⟨BitVec.ofNat 16 (fieldAt bs 0 2), bs.getD 2 0, 0xC0, bs.getD 6 0, [status, 0]⟩ s)

/-- The claimed level is above the session level, or below the command's level; a level byte that is no level is below every command (R305,
Table 13-9). -/
def levelRefused (mb : Mailbox) (bs : List Byte) (row : Option OpRow) (s : State) : Bool :=
  let c := (bs.getD 6 0).toNat
  decide (sessionCode s mb < c) || c == 0 || row.any fun r => decide (c < Access.code r.least)

/-- The checks of Table 13-9 in their order, and the command. -/
def checkEntry (mb : Mailbox) (bs : List Byte) (s : State) : State :=
  let op := fieldAt bs 0 2
  let len := fieldAt bs 4 2
  let row := opRow op s
  let req : Req := ⟨mb, bs.getD 2 0, (accessOf (bs.getD 6 0).toNat).getD .monitor⟩
  if crc32c (bs.take 252) ≠ BitVec.ofNat 32 (fieldAt bs 252 4) then raise 7 .contained 0 0 (answerRaw mb bs 0x13 s)
  else if 244 < len ∨ row.any (fun r => !r.admits len) = true then answerRaw mb bs 0x10 s
  else if levelRefused mb bs row s then refuse req op .level s
  else if row.isNone ∨ bs.getD 3 0 ≠ 0 ∨ bs.getD 7 0 ≠ 0 then answerRaw mb bs 0x11 s
  else runOpcode req op (bytesAt bs 8 len) s

/-- A mailbox from which a request can be taken: one waits, its responses have space, and its last request has had its first response
(R303, R308). -/
def servable (s : State) (mb : Mailbox) : Bool :=
  let m := mail s mb
  !m.reqQ.isEmpty && m.held.isEmpty && decide (m.rspQ.length < 8) && m.refusal.isNone && !s.upd.actReq.any (·.mb == mb)
  && !s.lad.parkTag.any (·.mb == mb)

/-- The mailboxes by their numbers. -/
def mailboxes : List Mailbox := [.host, .ring, .uart, .twb]

/-- The mailboxes in the order in which they are served next. -/
def serveOrderOf (t : Nat) : List Mailbox := mailboxes.drop t ++ mailboxes.take t

/-- The ring and the UART take the responses that wait in their queues. -/
def drainLinks (s : State) : State := drainRing (drainUart s)

/-- Takes one request; a new turn begins where the mailbox served lies before the last one (R308, counters 64 to 67). -/
def popRequest (mb : Mailbox) (s : State) : State :=
  match (mail s mb).reqQ with
  | [] => s
  | bs :: rest =>
    let i := Mailbox.idx mb
    let s := if i < s.host.turn then { s with cfg := { s.cfg with commitBusy := false } } else s
    let s := modMail mb (fun m => { m with reqQ := rest }) { s with host := { s.host with turn := i + 1 } }
    checkEntry mb bs (count (64 + i) s)

/-- The command processor runs: in Watch and Run, not in a reset, and not halted (R51, R72, R400). -/
def processorRuns (s : State) : Bool :=
  (s.clk.pstate == .run || s.clk.pstate == .watch) && s.clk.inReset.all (· == .powerOn) && !s.dbg.haltedCp

/-- REQUEST_POP (R307, R308). -/
def execRequestPop (s : State) : Out :=
  .next (if processorRuns s then
      match (serveOrderOf s.host.turn).find? (servable s) with
      | some mb => drainLinks (popRequest mb s)
      | none => s
    else s)

/-! Responses (R303, R308, R361, R362) -/

/-- The response to a refusal: the same whatever the cause (R361). -/
def refusalEntry (req : Req) (op : BitVec 16) (s : State) : Entry := ⟨op, req.tag, 0xC0, BitVec.ofNat 8 (sessionCode s req.mb), [0x20, 0]⟩

/-- A refusal raises SECURITY, with a record of its opcode and mailbox number alone, and enters with its cause the secure partition's log of
the last 64 (R362). -/
def noteRefusal (req : Req) (op : BitVec 16) (why : RefusalCause) (s : State) : State :=
  let n := Mailbox.idx req.mb
  let s := { s with key := { s.key with log := ((op, BitVec.ofNat 8 n, why) :: s.key.log).take 64 } }
  countFault 4 0 (eventRecordOf 4 0 0 2 false (bvBytes 2 op ++ leBytes 1 n) (latch 4 (count 68 s)))

/-- The refused request gets its response 200 us after its pop, unless its session has ended (R300, R361). -/
def endRefusal (mb : Mailbox) (s : State) : State :=
  match (mail s mb).refusal with
  | none => s
  | some r =>
    let s := advanceTo (r.2.2 + us 200) s
    let dropped := (mail s mb).dropRun.contains r.1.tag
    let why := (mail s mb).cause.getD .level
    let s := modMail mb (fun m => { m with refusal := none, cause := none, busy := false, dropRun := m.dropRun.filter (· != r.1.tag) }) s
    let s := if dropped then s else histAdd 0 200 (pushEntry mb (refusalEntry r.1 r.2.1 s) s)
    noteRefusal r.1 r.2.1 why s

/-- REFUSAL_RESPONSE: not while the command processor is halted (R313, R361, R362, R400). -/
def execRefusalResponse (mb : Mailbox) (s : State) : Out := .next (if s.dbg.haltedCp then s else drainLinks (endRefusal mb s))

/-- The final response of a command that has answered ACCEPTED or POSTPONED is pushed once its work is done, unless its session has ended
(R300, R308). -/
def pushFinal (r : Running) (s : State) : State :=
  let mb := r.req.mb
  let dropped := (mail s mb).dropRun.contains r.req.tag
  let s := { s with host := { s.host with running := s.host.running.filter fun q => q.req != r.req } }
  if dropped then modMail mb (fun m => { m with dropRun := m.dropRun.filter (· != r.req.tag) }) s
  else answer r.req r.opcode.toNat r.status r.reply s

/-- The longest time in ms from the pop of a request to its final response (Tables 14-1 to 14-13); the gate window of another shelf's eFuse is taken
at its upper bound. -/
def finalMs (op : Nat) : Nat :=
  if op = 0x0803 ∨ op = 0x0805 then 1002
  else if [0x0202, 0x0304, 0x0405, 0x0603, 0x0708, 0x0A03, 0x0A05, 0x0B01].contains op then 5
  else if [0x0705, 0x0B02, 0x0B05].contains op then 10
  else if [0x0107, 0x0604].contains op then 20
  else (([(0x0305, 2), (0x0503, 12), (0x0706, 55), (0x0707, 7), (0x0802, 21), (0x0904, 200), (0x0905, 60), (0x0A06, 2000), (0x0B03, 5000)]
    : List (Nat × Nat)).find? (·.1 == op)).elim 1 (·.2)

/-- A relay that has not ended is answered 5,000 ms after it began, with the reports held by then (Table 14-12). A RELAY whose inner command has not
answered within its own time and 10 ms is answered BUSY (Table 14-8, log entry 36), and an entry into Returned ends with its erasure (R357). -/
def endLate (r : Running) (s : State) : State :=
  if r.opcode = 0x0B03 ∧ r.done = false then endImageRelay (advanceTo (s.ring.relayAt + ms 5000) s)
  else if r.opcode = 0x070A ∧ r.done = false then
    let s := advanceTo (r.began + ms (finalMs (leNat (r.args.take 2)) + 10)) s
    finish r.req 0x02 [] { s with ring := { s.ring with relays := s.ring.relays.filter fun q => q.1 != r.req } }
  else if r.opcode = 0x0A06 ∧ r.done = false then endErasure r.req s
  else s

/-- The running command of a mailbox and TAG. -/
def runningOf (mb : Mailbox) (tag : Byte) (s : State) : Option Running := s.host.running.find? fun r => r.req.mb == mb && r.req.tag == tag

/-- FINAL_RESPONSE. -/
def finalResponse (mb : Mailbox) (tag : Byte) (s : State) : State :=
  match runningOf mb tag s with
  | none => s
  | some r =>
    let s := endLate r s
    match runningOf mb tag s with
    | some q => if q.done then drainLinks (pushFinal q s) else s
    | none => s

/-- FINAL_RESPONSE: not while the command processor is halted (R308, R400). -/
def execFinalResponse (mb : Mailbox) (tag : Byte) (s : State) : Out := .next (if s.dbg.haltedCp then s else finalResponse mb tag s)

/-- RESPONSE_PUSH: a response that was held takes its place once space exists (R303). -/
def pushHeld (mb : Mailbox) (s : State) : State :=
  match (mail s mb).held with
  | [] => s
  | e :: es => if (mail s mb).rspQ.length < 8 then modMail mb (fun m => { m with rspQ := m.rspQ ++ [e], held := es }) s else s

/-- RESPONSE_PUSH (R303). -/
def execResponsePush (mb : Mailbox) (s : State) : Out := .next (drainLinks (pushHeld mb s))

/-- A gating request that waited for the hold on bus A is carried out and is done (R317, R353). -/
def releaseGate (r : Running) (s : State) : State :=
  finish r.req 0x00 [r.args.getD 1 0] (gateBlock (r.args.getD 0 0) (r.args.getD 1 0) s)

/-- HOLD_RELEASE: never while the hold stands (R353). -/
def execHoldRelease (s : State) : Out :=
  .next (if s.busA.held then s
    else (s.host.running.filter fun r => r.opcode == 0x0107 && !r.done).foldl (fun st r => releaseGate r st) s)

end Sys2Proof.Machine
end

