-- ==== Sys2Proof/Machine/DebugEv.lean ====
section
/-! DEFINITION. The debug port (R367, R399, R400; Tables 16-5, 18-3 and 18-5). -/

namespace Sys2Proof.Machine

/-- A Maker session stands on the host SPI or service UART mailbox (Table 16-5). -/
def makerSession (s : State) : Bool := (mail s .host).level == .maker || (mail s .uart).level == .maker

/-- The port answers: in Blank and Factory, in Returned while a Maker session stands, and only where the control die runs (R367, Table 16-5). -/
def debugOpen (s : State) : Bool :=
  (s.clk.pstate == .run || s.clk.pstate == .watch)
  && (s.key.life == .blank || s.key.life == .factory || (s.key.life == .returned && makerSession s))

/-! Reads (R399) -/

/-- A snapshot slot but its CRC (Table 18-3). -/
def cutHead (c : Cut) : List Byte :=
  bvBytes 4 c.order ++ bvBytes 4 c.epoch ++ leBytes 8 c.tLatch ++ leBytes 8 c.tActual ++ leBytes 1 (bit c.late 0 + bit c.holdover 1)
  ++ List.replicate 7 0 ++ leBytes 12 (maskOf c.gap) ++ (c.counters.flatMap (leBytes 8)) ++ (c.hist.flatMap fun h => h.flatMap (leBytes 8))

/-- A snapshot slot (Table 18-3). -/
def cutBytes (c : Cut) : List Byte := cutHead c ++ bvBytes 4 (crc32c (cutHead c))

/-- The header of a journal region (R341); the CRC of one that STATE 0x00 has made invalid is not stated (log entry 7). -/
def headerBytes (r : JRegion) : List Byte :=
  let b := leBytes 4 0x4C4E524A ++ bvBytes 4 r.firstSeq ++ [if r.valid then 1 else 0, 0, 0, 0]
  if r.valid then b ++ bvBytes 4 (crc32c b) else b

/-- The parameter records among ITEMS of a group, in the form of Table 14-3. -/
def groupRecords (g : JGroup) : List Byte :=
  (g.items.params.getD [] ++ (g.items.pending.getD ([], 0)).1).flatMap fun r => recordBytes r.id r.vals

/-- ITEMS of a group: its parameter records, then state items whose layout is not stated (Table 15-3, log entry 7). -/
def groupItems (g : JGroup) : List Byte :=
  let l := groupRecords g
  (l ++ (List.range (g.len - l.length)).map fun i => Config.stateItemByte g.kind.toNat g.seq.toNat (l.length + i)).take g.len

/-- A copy of a journal group but its CRC (Table 15-3). -/
def groupHead (copy : Nat) (g : JGroup) : List Byte :=
  leBytes 2 0x4A47 ++ bvBytes 1 g.kind ++ leBytes 1 copy ++ bvBytes 4 g.seq ++ leBytes 4 g.len ++ bvBytes 4 g.gen ++ groupItems g

/-- A copy of a journal group, whose CRC takes COPY as 0x00, up to the next 16-byte boundary (Table 15-3). -/
def groupCopy (copy : Nat) (g : JGroup) : List Byte :=
  fitBytes (groupBytes g.len) (groupHead copy g ++ bvBytes 4 (crc32c (groupHead 0 g)))

/-- The byte of a copy of the groups at an offset, the first group at off; a failed copy holds no stated byte (R341, R343). -/
def groupByte (copy : Nat) : List JGroup → Nat → Nat → Option Byte
  | [], _, _ => none
  | g :: gs, off, o =>
    if o < off + groupBytes g.len then (if if copy = 0 then g.ok0 else g.ok1 then (groupCopy copy g)[o - off]? else none)
    else groupByte copy gs (off + groupBytes g.len) o

/-- A byte of a journal region: both halves hold the header in page 0 and the groups from offset 0x100 (R341). -/
def regionByte (r : JRegion) (o : Nat) : Option Byte :=
  if o % 0x10000 < 0x100 then (if r.headed then (headerBytes r)[o % 0x10000]? else none)
  else groupByte (o / 0x10000) r.groups 0x100 (o % 0x10000)

/-- A byte of the last-fault records: two copies of 32 bytes for each channel, the rest of the region 0 (R274, Table 11-7). -/
def lastFaultByte (s : State) (o : Nat) : Option Byte :=
  let f := s.aux.faults.getD (o / 32) LastFault.reset
  if 640 ≤ o then some 0 else if f.valid then (lastFaultBytes (o / 64) f)[o % 32]? else none

/-- A slot of the page that the writer has cleared before it entered the page it stands in (R346). -/
def clearedSlot (s : State) (slot : Nat) : Bool :=
  match s.nv.recs with
  | r :: _ => slot / 4 == (r.seq.toNat / 4 + 1) % 16384
  | [] => false

/-- A byte of a slot of the recorder: that of an intact record, or 0 in the page that the writer has cleared (R345, R346, Table 15-4). -/
def recordByte (s : State) (a : Nat) : Option Byte :=
  if clearedSlot s (a / 64) then some 0 else
  (s.nv.recs.find? fun r => r.intact && r.seq.toNat % 65536 == a / 64).bind fun r => (recordOut r)[a % 64]?

/-- What MRAM holds at an address, where the spec states it: the journal regions, the last-fault records, model files, patch slots, snapshot slots
and recorder records (Table 15-1, R274, R341, R345). -/
def mramByte (s : State) (a : Nat) : Option Byte :=
  if a < 0x020000 then regionByte s.nv.regA a
  else if a < 0x040000 then regionByte s.nv.regB (a - 0x020000)
  else if 0x050000 ≤ a ∧ a < 0x050400 then lastFaultByte s (a - 0x050000)
  else if 0x100000 ≤ a ∧ a < 0x140000 then some (readByte (a - 0x100000) s.nv.fileActive)
  else if 0x140000 ≤ a ∧ a < 0x180000 then some (readByte (a - 0x140000) s.nv.fileStaged)
  else if 0x200000 ≤ a ∧ a < 0x280000 then some (readByte (a - 0x200000) s.nv.slot0)
  else if 0x280000 ≤ a ∧ a < 0x300000 then some (readByte (a - 0x280000) s.nv.slot1)
  else if 0x300000 ≤ a ∧ a < 0x400000 then
    (s.nv.cuts.find? fun c => c.order.toNat % 256 == (a - 0x300000) / 4096).bind fun c => (cutBytes c)[a % 4096]?
  else if 0x400000 ≤ a then recordByte s (a - 0x400000)
  else none

/-- An MRAM read of n bytes is checked as R339 states: an uncorrectable group is a contained event. The content of a lost group, and of what the
spec gives no layout, is not stated (log entry 2). -/
def readMram (a n : Nat) (s : State) : List Byte × State :=
  let q := checkedRead (a / 256) s
  let s := if q.1 then remapPage (a / 256) (pageLost (a / 256) q.2) else q.2
  let p := takeFree s
  let lost := fun (i : Nat) => s.nv.badPages.contains ((a + i) / 256)
  let open_ := fitBytes n (Config.freeBytes p.1)
  let bs := (List.range n).map fun i => if lost i then open_.getD i 0 else (mramByte s (a + i)).getD (open_.getD i 0)
  (bs, if (List.range n).any lost then raise 14 .contained 1 0 (count 78 p.2) else p.2)

/-- The code of a cause in the log of refusals, whose form the spec does not give (DESIGN CHOICE, log entry 179). -/
def causeCode : RefusalCause → Byte
  | .level => 0 | .maximum => 1 | .lockout => 2 | .mac => 3 | .blob => 4 | .transition => 5 | .signature => 6 | .image => 7 | .state => 8

/-- The secure partition's log of refusals, newest first: it can be read in Returned only (R362). -/
def refusalLog (s : State) : List Byte :=
  if s.key.life = .returned then s.key.log.flatMap fun r => bvBytes 2 r.1 ++ [r.2.1, causeCode r.2.2] else []

/-- The data of a debug read: nothing is cleared, pushed, popped or moved (R399). -/
def debugData (t : DebugTarget) (n : Nat) (s : State) : List Byte × State :=
  match t with
  | .register a => (registerBytes s a.toNat n, s)
  | .rspwin => (windowBytes .host 0 n s, s)
  | .mram a => readMram a.toNat n s
  | .status => ((bvBytes 4 (debugWord s)).take n, s)
  | .refusals => ((refusalLog s).take n, s)

/-- A debug read; a closed port gives no response (R367). -/
def debugReadOp (t : DebugTarget) (n : Nat) (s : State) : State :=
  if debugOpen s then
    let p := debugData t n s
    { p.2 with dbg := { p.2.dbg with data := p.1 } }
  else { s with dbg := { s.dbg with data := [] } }

/-- DEBUG_READ (R339, R367, R399). -/
def execDebugRead (target : DebugTarget) (count : Nat) (s : State) : Out := .next (debugReadOp target count s)

/-! Halts (R400) -/

/-- A halt takes effect: that of the loop processor only while the shelf is not admitted; while it is, the command processor alone
halts. -/
def takeHalt (cp lp : Bool) (s : State) : State :=
  let d := s.dbg
  if isAdmitted s then { s with dbg := { d with haltedCp := d.haltedCp || cp || lp, pend := none } }
  else { s with dbg := { d with haltedCp := d.haltedCp || cp, haltedLp := d.haltedLp || lp, pend := none } }

/-- A halt is held while a locked sequence runs. -/
def askHalt (cp lp : Bool) (s : State) : State :=
  if s.dbg.lock = 0 then takeHalt cp lp s
  else
    let p := s.dbg.pend.getD (false, false)
    { s with dbg := { s.dbg with pend := some (p.1 || cp, p.2 || lp) } }

/-- DEBUG_HALT (R400): lock names the locked sequence inside which the halt falls, 0 for none (log entry 115). -/
def execDebugHalt (cp lp : Bool) (lock : BitVec 2) (s : State) : Out :=
  .next (if debugOpen s ∧ (cp ∨ lp) then
      askHalt cp lp (if lock ≠ 0 ∧ processorRuns s then { s with dbg := { s.dbg with lock := lock } } else s)
    else s)

/-- The locked sequence exits and the held halt takes effect (R400). -/
def releaseLock (s : State) : State :=
  let s := { s with dbg := { s.dbg with lock := 0 } }
  match s.dbg.pend with
  | some p => takeHalt p.1 p.2 s
  | none => s

/-- HALT_PENDING_RELEASE (R400). -/
def execHaltPendingRelease (s : State) : Out := .next (if s.dbg.pend.isSome then releaseLock s else s)

/-- A forced halt in Returned halts both processors at once and freezes the ladder (R100, R367, R400). -/
def forceHalt (s : State) : State :=
  freezeLadder { s with dbg := { s.dbg with haltedCp := true, haltedLp := true, forced := true, pend := none } }

/-- FORCED_HALT (R367, R400). -/
def execForcedHalt (s : State) : Out := .next (if s.key.life = .returned ∧ debugOpen s then forceHalt s else s)

/-- The halted processors run again, and with them their watchdogs; the ladder that a forced halt froze goes on from its set (R101, R400). -/
def resumeHalt (cp lp : Bool) (s : State) : State :=
  let d := s.dbg
  let keepCp := d.haltedCp && !cp
  let keepLp := d.haltedLp && !lp
  let goOn := fun (st : State) => if d.forced && !keepCp && !keepLp && s.clk.inReset.isNone then resumeLadder st else st
  goOn { s with
    dbg := { d with haltedCp := keepCp, haltedLp := keepLp, forced := d.forced && (keepCp || keepLp)
                    pend := d.pend.bind fun p => if (p.1 && !cp) || (p.2 && !lp) then some (p.1 && !cp, p.2 && !lp) else none }
    clk := { s.clk with cpService := if cp then s.clk.now else s.clk.cpService } }

/-- DEBUG_RESUME (R400). -/
def execDebugResume (cp lp : Bool) (s : State) : Out := .next (if debugOpen s then resumeHalt cp lp s else s)

end Sys2Proof.Machine
end

