-- ==== Sys2Proof/Machine/LocalBus.lean ====
section
/-! DEFINITION. Two-wire bus A and the token's polls (R378 to R383). -/

namespace Sys2Proof.Machine

/-- Bus A runs in Watch and Run while its block is not gated (R51, R317). -/
def busARuns (s : State) : Bool := (s.clk.pstate == .run || s.clk.pstate == .watch) && s.host.gates.getD 1 0 == 0

/-- The transaction in progress has ended; what it answered stands as the last answer. -/
def endTransaction (ok : Bool) (data : List Byte) (s : State) : State :=
  { s with busA := { s.busA with queue := s.busA.queue.drop 1, losses := 0, sdaStuck := false, answers := [(ok, data)] } }

/-- A failed transaction counts as no answer: of an attempt, it ends the attempt (R381, R383). -/
def failTransaction (s : State) : State :=
  let s := endTransaction false [] s
  if s.chg.attempt then endAttempt none s else s

/-- One transaction (R380, R381, counters 79 and 81): a lost arbitration is tried again at most 3 times. -/
def takeTransaction (o : BusOutcome) (s : State) : State :=
  match o with
  | .answered data => endTransaction true data s
  | .notAcknowledged => failTransaction (count 81 s)
  | .arbitrationLost =>
    let s := count 79 s
    if s.busA.losses < 3 then { s with busA := { s.busA with losses := s.busA.losses + 1 } } else failTransaction s

/-- BUS_A_TRANSACTION: one that runs finds SCL risen (R379 to R381). -/
def execBusATransaction (outcome : BusOutcome) (s : State) : Out :=
  .next (if busARuns s then takeTransaction outcome { s with busA := { s.busA with sclStuck := false, released := true } } else s)

/-- SCL has stood low for 25 ms: the transaction fails, the lines are released and SDA is freed by clocks and STOP (R379, counter 80). With the
timeout off the bus waits until SCL rises. -/
def sclTimeout (s : State) : State :=
  if s.par 0x0123 = 1 then
    let s := failTransaction (count 80 s)
    { s with busA := { s.busA with sclStuck := false, released := true } }
  else { s with busA := { s.busA with sclStuck := true, released := false } }

/-- BUS_A_TIMEOUT (R379). -/
def execBusATimeout (s : State) : Out := .next (if busARuns s then sclTimeout s else s)

/-- One poll of the token's state, every 200 us: error, no answer, or not ready by 3.0 ms ends the attempt (R383, Table 17-2). -/
def pollToken (state : Option Byte) (s : State) : State :=
  if !s.chg.attempt then s
  else
    let s := elapse (us 200) { s with busA := { s.busA with polls := s.busA.polls + 1 } }
    match state with
    | none => failTransaction (count 81 s)
    | some b => if b = 0x02 then s else if b = 0x03 ∨ 15 ≤ s.busA.polls then endAttempt none s else s

/-- TOKEN_POLL (R383). -/
def execTokenPoll (state : Option Byte) (s : State) : Out := .next (if busARuns s then pollToken state s else s)

end Sys2Proof.Machine
end

