-- ==== Sys2Proof/Machine/Dispatch.lean ====
section
/-! DEFINITION. One arm per command: the meaning of each command of Instr, by name. -/

namespace Sys2Proof.Machine

/-- The effect of one command on everything but the queue of waiting commands. -/
def exec (i : Instr) (s : State) : Host.Outcome State Fault Refusal :=
  match i with
  | .sysInfo req => Sys2Proof.Machine.execSysInfo req s
  | .sysReset req kind => Sys2Proof.Machine.execSysReset req kind s
  | .tempRead req => Sys2Proof.Machine.execTempRead req s
  | .faultRead req => Sys2Proof.Machine.execFaultRead req s
  | .faultClear req mask => Sys2Proof.Machine.execFaultClear req mask s
  | .faultInject req target kind value duration => Sys2Proof.Machine.execFaultInject req target kind value duration s
  | .blockGate req block action => Sys2Proof.Machine.execBlockGate req block action s
  | .cfgStage req records => Sys2Proof.Machine.execCfgStage req records s
  | .cfgCommit req expect => Sys2Proof.Machine.execCfgCommit req expect s
  | .cfgDiscard req => Sys2Proof.Machine.execCfgDiscard req s
  | .cfgRead req source ids => Sys2Proof.Machine.execCfgRead req source ids s
  | .cfgState req => Sys2Proof.Machine.execCfgState req s
  | .ladderStatus req => Sys2Proof.Machine.execLadderStatus req s
  | .ladderPark req mask => Sys2Proof.Machine.execLadderPark req mask s
  | .shelfBypass req action => Sys2Proof.Machine.execShelfBypass req action s
  | .levelClear req mask => Sys2Proof.Machine.execLevelClear req mask s
  | .ladderCheck req => Sys2Proof.Machine.execLadderCheck req s
  | .measRead req => Sys2Proof.Machine.execMeasRead req s
  | .ntcRead req => Sys2Proof.Machine.execNtcRead req s
  | .senseStatus req => Sys2Proof.Machine.execSenseStatus req s
  | .switchBins req level => Sys2Proof.Machine.execSwitchBins req level s
  | .senseClear req mask => Sys2Proof.Machine.execSenseClear req mask s
  | .cellAccount req first latch => Sys2Proof.Machine.execCellAccount req first latch s
  | .packInfo req => Sys2Proof.Machine.execPackInfo req s
  | .packAuth req => Sys2Proof.Machine.execPackAuth req s
  | .engineOutput req first count => Sys2Proof.Machine.execEngineOutput req first count s
  | .spectrum req level part => Sys2Proof.Machine.execSpectrum req level part s
  | .modelWrite req offset data => Sys2Proof.Machine.execModelWrite req offset data s
  | .modelInfo req slot => Sys2Proof.Machine.execModelInfo req slot s
  | .rackStatus req => Sys2Proof.Machine.execRackStatus req s
  | .rackDispatch req vd tApply limDis limCh kind => Sys2Proof.Machine.execRackDispatch req vd tApply limDis limCh kind s
  | .rackBus req vbus contactor => Sys2Proof.Machine.execRackBus req vbus contactor s
  | .holdupClear req => Sys2Proof.Machine.execHoldupClear req s
  | .rackSleep req => Sys2Proof.Machine.execRackSleep req s
  | .rackStage req records => Sys2Proof.Machine.execRackStage req records s
  | .rackCommit req digest => Sys2Proof.Machine.execRackCommit req digest s
  | .handover req => Sys2Proof.Machine.execHandover req s
  | .ringStatus req => Sys2Proof.Machine.execRingStatus req s
  | .relay req dst rsv inner payload => Sys2Proof.Machine.execRelay req dst rsv inner payload s
  | .auxStatus req => Sys2Proof.Machine.execAuxStatus req s
  | .railClear req channel => Sys2Proof.Machine.execRailClear req channel s
  | .efuseClear req channel => Sys2Proof.Machine.execEfuseClear req channel s
  | .efusePermit req channel permit => Sys2Proof.Machine.execEfusePermit req channel permit s
  | .stepControl req code action => Sys2Proof.Machine.execStepControl req code action s
  | .lastFault req channel => Sys2Proof.Machine.execLastFault req channel s
  | .recSeek req mode key => Sys2Proof.Machine.execRecSeek req mode key s
  | .recRead req count => Sys2Proof.Machine.execRecRead req count s
  | .journalInfo req => Sys2Proof.Machine.execJournalInfo req s
  | .journalCompact req => Sys2Proof.Machine.execJournalCompact req s
  | .capture req => Sys2Proof.Machine.execCapture req s
  | .authChallenge req level => Sys2Proof.Machine.execAuthChallenge req level s
  | .authResponse req level mac => Sys2Proof.Machine.execAuthResponse req level mac s
  | .identity req challenge => Sys2Proof.Machine.execIdentity req challenge s
  | .identityKey req => Sys2Proof.Machine.execIdentityKey req s
  | .keyInstall req slot rsv blob => Sys2Proof.Machine.execKeyInstall req slot rsv blob s
  | .lifecycleSet req target rsv auth => Sys2Proof.Machine.execLifecycleSet req target rsv auth s
  | .imageWrite req offset data => Sys2Proof.Machine.execImageWrite req offset data s
  | .imageVerify req => Sys2Proof.Machine.execImageVerify req s
  | .imageRelay req => Sys2Proof.Machine.execImageRelay req s
  | .imageStatus req => Sys2Proof.Machine.execImageStatus req s
  | .activate req expect => Sys2Proof.Machine.execActivate req expect s
  | .counterRead req first count source order => Sys2Proof.Machine.execCounterRead req first count source order s
  | .snapshot req => Sys2Proof.Machine.execSnapshot req s
  | .snapOrder req tLatch => Sys2Proof.Machine.execSnapOrder req tLatch s
  | .histRead req hist half source order => Sys2Proof.Machine.execHistRead req hist half source order s
  | .preciseRead req first => Sys2Proof.Machine.execPreciseRead req first s
  | .traceRead req offset => Sys2Proof.Machine.execTraceRead req offset s
  | .hstatRead addr num => Sys2Proof.Machine.execHstatRead addr num s
  | .fstatWrite value => Sys2Proof.Machine.execFstatWrite value s
  | .registerWrite addr data => Sys2Proof.Machine.execRegisterWrite addr data s
  | .doorSync => Sys2Proof.Machine.execDoorSync s
  | .doorDrop => Sys2Proof.Machine.execDoorDrop s
  | .reqwinPush bytes => Sys2Proof.Machine.execReqwinPush bytes s
  | .rspwinPop count => Sys2Proof.Machine.execRspwinPop count s
  | .hcsNTimeout => Sys2Proof.Machine.execHcsNTimeout s
  | .requestPop => Sys2Proof.Machine.execRequestPop s
  | .refusalResponse mb => Sys2Proof.Machine.execRefusalResponse mb s
  | .finalResponse mb tag => Sys2Proof.Machine.execFinalResponse mb tag s
  | .responsePush mb => Sys2Proof.Machine.execResponsePush mb s
  | .holdRelease => Sys2Proof.Machine.execHoldRelease s
  | .twbWindowWrite bytes => Sys2Proof.Machine.execTwbWindowWrite bytes s
  | .twbWindowRead count => Sys2Proof.Machine.execTwbWindowRead count s
  | .twbStatusRead count => Sys2Proof.Machine.execTwbStatusRead count s
  | .uartByteReceived byte stop => Sys2Proof.Machine.execUartByteReceived byte stop s
  | .uartIdle => Sys2Proof.Machine.execUartIdle s
  | .powerOnReset => Sys2Proof.Machine.execPowerOnReset s
  | .notReadyClear => Sys2Proof.Machine.execNotReadyClear s
  | .shoreClockToCrystal => Sys2Proof.Machine.execShoreClockToCrystal s
  | .brownOut => Sys2Proof.Machine.execBrownOut s
  | .controllerReset => Sys2Proof.Machine.execControllerReset s
  | .rstNLow lowNs => Sys2Proof.Machine.execRstNLow lowNs s
  | .cpWatchdogExpiry => Sys2Proof.Machine.execCpWatchdogExpiry s
  | .lpWatchdogExpiry => Sys2Proof.Machine.execLpWatchdogExpiry s
  | .recoveryComplete => Sys2Proof.Machine.execRecoveryComplete s
  | .supplySwitchover input => Sys2Proof.Machine.execSupplySwitchover input s
  | .holdupEntry => Sys2Proof.Machine.execHoldupEntry s
  | .finalCounterLatch => Sys2Proof.Machine.execFinalCounterLatch s
  | .holdupExit => Sys2Proof.Machine.execHoldupExit s
  | .holdupCollapse => Sys2Proof.Machine.execHoldupCollapse s
  | .vholdCharged fromMv toMv chargeNs chargeUa => Sys2Proof.Machine.execVholdCharged fromMv toMv chargeNs chargeUa s
  | .vholdChargeTimeout => Sys2Proof.Machine.execVholdChargeTimeout s
  | .gateSupplyUp bsUp insertShort bypassShort => Sys2Proof.Machine.execGateSupplyUp bsUp insertShort bypassShort s
  | .cellScan outside vholdMv chargeNs chargeUa => Sys2Proof.Machine.execCellScan outside vholdMv chargeNs chargeUa s
  | .wakeCurrent currentMa chargeNas => Sys2Proof.Machine.execWakeCurrent currentMa chargeNas s
  | .wakeToneDetected port => Sys2Proof.Machine.execWakeToneDetected port s
  | .wakeIn lowNs => Sys2Proof.Machine.execWakeIn lowNs s
  | .wakeTimerExpiry => Sys2Proof.Machine.execWakeTimerExpiry s
  | .watchToRun => Sys2Proof.Machine.execWatchToRun s
  | .watchToStill => Sys2Proof.Machine.execWatchToStill s
  | .stillDwellEnd => Sys2Proof.Machine.execStillDwellEnd s
  | .sleepFrameReceived port frame => Sys2Proof.Machine.execSleepFrameReceived port frame s
  | .sleepVoteTimeout => Sys2Proof.Machine.execSleepVoteTimeout s
  | .sleepVeto activeNs => Sys2Proof.Machine.execSleepVeto activeNs s
  | .stillEntry => Sys2Proof.Machine.execStillEntry s
  | .firstSyncAfterWake => Sys2Proof.Machine.execFirstSyncAfterWake s
  | .shoreCrystalLoss => Sys2Proof.Machine.execShoreCrystalLoss s
  | .referenceLoss => Sys2Proof.Machine.execReferenceLoss s
  | .holdoverEntry => Sys2Proof.Machine.execHoldoverEntry s
  | .timeLost => Sys2Proof.Machine.execTimeLost s
  | .tsyncPulse => Sys2Proof.Machine.execTsyncPulse s
  | .shoreMirrorRefresh => Sys2Proof.Machine.execShoreMirrorRefresh s
  | .controlPeriod => Sys2Proof.Machine.execControlPeriod s
  | .frameBoundary => Sys2Proof.Machine.execFrameBoundary s
  | .carrierPeak => Sys2Proof.Machine.execCarrierPeak s
  | .commandReceived port frame => Sys2Proof.Machine.execCommandReceived port frame s
  | .commandMissing => Sys2Proof.Machine.execCommandMissing s
  | .holdExpiry => Sys2Proof.Machine.execHoldExpiry s
  | .holdPark => Sys2Proof.Machine.execHoldPark s
  | .guardCellLimit level limit => Sys2Proof.Machine.execGuardCellLimit level limit s
  | .guardParkAll reason => Sys2Proof.Machine.execGuardParkAll reason s
  | .guardRelease level => Sys2Proof.Machine.execGuardRelease level s
  | .gateStuck level insertStuck => Sys2Proof.Machine.execGateStuck level insertStuck s
  | .shelfBypassForceOpen => Sys2Proof.Machine.execShelfBypassForceOpen s
  | .admission => Sys2Proof.Machine.execAdmission s
  | .preStartCheckLevel level first second => Sys2Proof.Machine.execPreStartCheckLevel level first second s
  | .startRampStep => Sys2Proof.Machine.execStartRampStep s
  | .startAbort currentMa outputMv => Sys2Proof.Machine.execStartAbort currentMa outputMv s
  | .freeze => Sys2Proof.Machine.execFreeze s
  | .freezeExpiry => Sys2Proof.Machine.execFreezeExpiry s
  | .parkStep => Sys2Proof.Machine.execParkStep s
  | .packDisconnect => Sys2Proof.Machine.execPackDisconnect s
  | .packDisconnectDone outputMv => Sys2Proof.Machine.execPackDisconnectDone outputMv s
  | .packDisconnectTimeout => Sys2Proof.Machine.execPackDisconnectTimeout s
  | .cellSample cells => Sys2Proof.Machine.execCellSample cells s
  | .shuntSample nanoVolt inputOpen => Sys2Proof.Machine.execShuntSample nanoVolt inputOpen s
  | .hallSample microVolt => Sys2Proof.Machine.execHallSample microVolt s
  | .integrationInterval inserted => Sys2Proof.Machine.execIntegrationInterval inserted s
  | .cellMeans1ms => Sys2Proof.Machine.execCellMeans1ms s
  | .tapTestsComplete tap moveUv => Sys2Proof.Machine.execTapTestsComplete tap moveUv s
  | .stackSample microVolt inputMa => Sys2Proof.Machine.execStackSample microVolt inputMa s
  | .switchDropSlot blanked microVolt => Sys2Proof.Machine.execSwitchDropSlot blanked microVolt s
  | .ntcSlot ratioPpm => Sys2Proof.Machine.execNtcSlot ratioPpm s
  | .correctionUpdate10ms rcPeriodPs => Sys2Proof.Machine.execCorrectionUpdate10ms rcPeriodPs s
  | .socUpdate => Sys2Proof.Machine.execSocUpdate s
  | .counterCommit => Sys2Proof.Machine.execCounterCommit s
  | .anchorHoldExpiry level => Sys2Proof.Machine.execAnchorHoldExpiry level s
  | .anchorEnd level => Sys2Proof.Machine.execAnchorEnd level s
  | .tokenRead answer => Sys2Proof.Machine.execTokenRead answer s
  | .packAuthAttempt answer => Sys2Proof.Machine.execPackAuthAttempt answer s
  | .engineStep => Sys2Proof.Machine.execEngineStep s
  | .engineStepComplete tile => Sys2Proof.Machine.execEngineStepComplete tile s
  | .engineOverrun => Sys2Proof.Machine.execEngineOverrun s
  | .warmupTimeout tile => Sys2Proof.Machine.execWarmupTimeout tile s
  | .ensembleResample => Sys2Proof.Machine.execEnsembleResample s
  | .learnedSetWrite => Sys2Proof.Machine.execLearnedSetWrite s
  | .engineRestart => Sys2Proof.Machine.execEngineRestart s
  | .impedanceWindowEnd level point => Sys2Proof.Machine.execImpedanceWindowEnd level point s
  | .ditherChip => Sys2Proof.Machine.execDitherChip s
  | .throttleChange => Sys2Proof.Machine.execThrottleChange s
  | .wellheadCycle => Sys2Proof.Machine.execWellheadCycle s
  | .busHoldupExit => Sys2Proof.Machine.execBusHoldupExit s
  | .statusSend => Sys2Proof.Machine.execStatusSend s
  | .statusUnscheduled => Sys2Proof.Machine.execStatusUnscheduled s
  | .statusReceived port frame => Sys2Proof.Machine.execStatusReceived port frame s
  | .leaderLoss => Sys2Proof.Machine.execLeaderLoss s
  | .successorTakeover => Sys2Proof.Machine.execSuccessorTakeover s
  | .rankTakeover => Sys2Proof.Machine.execRankTakeover s
  | .plannedHandover => Sys2Proof.Machine.execPlannedHandover s
  | .leaseExpiry => Sys2Proof.Machine.execLeaseExpiry s
  | .checkpointSend => Sys2Proof.Machine.execCheckpointSend s
  | .checkpointExpiry => Sys2Proof.Machine.execCheckpointExpiry s
  | .rackStageReceived src records => Sys2Proof.Machine.execRackStageReceived src records s
  | .rackStageTimeout => Sys2Proof.Machine.execRackStageTimeout s
  | .rackOrderReceived gen tc => Sys2Proof.Machine.execRackOrderReceived gen tc s
  | .rackCommitApply => Sys2Proof.Machine.execRackCommitApply s
  | .pendingDiscard => Sys2Proof.Machine.execPendingDiscard s
  | .frameForward port frame => Sys2Proof.Machine.execFrameForward port frame s
  | .syncSend port => Sys2Proof.Machine.execSyncSend port s
  | .syncReceived port frame => Sys2Proof.Machine.execSyncReceived port frame s
  | .trainingBurst port heard => Sys2Proof.Machine.execTrainingBurst port heard s
  | .portDown port => Sys2Proof.Machine.execPortDown port s
  | .msgReceived port frame => Sys2Proof.Machine.execMsgReceived port frame s
  | .msgRetry dst => Sys2Proof.Machine.execMsgRetry dst s
  | .suspendTimeout port => Sys2Proof.Machine.execSuspendTimeout port s
  | .imageFrameReceived port frame => Sys2Proof.Machine.execImageFrameReceived port frame s
  | .imageFrameSend port => Sys2Proof.Machine.execImageFrameSend port s
  | .snapReceived port frame => Sys2Proof.Machine.execSnapReceived port frame s
  | .snapLatch => Sys2Proof.Machine.execSnapLatch s
  | .sequenceStep seqIn => Sys2Proof.Machine.execSequenceStep seqIn s
  | .railPowerGood channel => Sys2Proof.Machine.execRailPowerGood channel s
  | .softStartEnd channel reading => Sys2Proof.Machine.execSoftStartEnd channel reading s
  | .railLatchOff channel reason reading => Sys2Proof.Machine.execRailLatchOff channel reason reading s
  | .railAutoClear channel => Sys2Proof.Machine.execRailAutoClear channel s
  | .efusePrecheckEnd channel reading => Sys2Proof.Machine.execEfusePrecheckEnd channel reading s
  | .efuseGateWindow channel reading => Sys2Proof.Machine.execEfuseGateWindow channel reading s
  | .efuseTrip channel overload reading => Sys2Proof.Machine.execEfuseTrip channel overload reading s
  | .efuseFaultTimer channel reading => Sys2Proof.Machine.execEfuseFaultTimer channel reading s
  | .orderedShutdownFall outMv => Sys2Proof.Machine.execOrderedShutdownFall outMv s
  | .fltNExternalLow => Sys2Proof.Machine.execFltNExternalLow s
  | .fltNPulseEnd => Sys2Proof.Machine.execFltNPulseEnd s
  | .fltNRestart => Sys2Proof.Machine.execFltNRestart s
  | .dieTempReading power sensor count => Sys2Proof.Machine.execDieTempReading power sensor count s
  | .safeModeExit => Sys2Proof.Machine.execSafeModeExit s
  | .safeModeTimeout => Sys2Proof.Machine.execSafeModeTimeout s
  | .faultEvent source grade level line => Sys2Proof.Machine.execFaultEvent source grade level line s
  | .severeEnd source => Sys2Proof.Machine.execSevereEnd source s
  | .injectionEnd id => Sys2Proof.Machine.execInjectionEnd id s
  | .compactionSlice => Sys2Proof.Machine.execCompactionSlice s
  | .journalReplay => Sys2Proof.Machine.execJournalReplay s
  | .deferredRecordFlush => Sys2Proof.Machine.execDeferredRecordFlush s
  | .periodicSnapshot => Sys2Proof.Machine.execPeriodicSnapshot s
  | .timeMark => Sys2Proof.Machine.execTimeMark s
  | .scrubPage corrected uncorrectable => Sys2Proof.Machine.execScrubPage corrected uncorrectable s
  | .captureTrigger cause => Sys2Proof.Machine.execCaptureTrigger cause s
  | .captureSample => Sys2Proof.Machine.execCaptureSample s
  | .captureEnd => Sys2Proof.Machine.execCaptureEnd s
  | .versionReport src data => Sys2Proof.Machine.execVersionReport src data s
  | .activationRequest src data => Sys2Proof.Machine.execActivationRequest src data s
  | .grantExpiry => Sys2Proof.Machine.execGrantExpiry s
  | .grantReceived data => Sys2Proof.Machine.execGrantReceived data s
  | .grantTimeout => Sys2Proof.Machine.execGrantTimeout s
  | .activationRestart => Sys2Proof.Machine.execActivationRestart s
  | .trialEnd => Sys2Proof.Machine.execTrialEnd s
  | .authLockoutEnd mb => Sys2Proof.Machine.execAuthLockoutEnd mb s
  | .busATransaction outcome => Sys2Proof.Machine.execBusATransaction outcome s
  | .busATimeout => Sys2Proof.Machine.execBusATimeout s
  | .tokenPoll state => Sys2Proof.Machine.execTokenPoll state s
  | .counterOverflowIrq counter latency => Sys2Proof.Machine.execCounterOverflowIrq counter latency s
  | .debugRead target count => Sys2Proof.Machine.execDebugRead target count s
  | .debugHalt cp lp lock => Sys2Proof.Machine.execDebugHalt cp lp lock s
  | .haltPendingRelease => Sys2Proof.Machine.execHaltPendingRelease s
  | .forcedHalt => Sys2Proof.Machine.execForcedHalt s
  | .supplyBandChange vmainMv vauxMv => Sys2Proof.Machine.execSupplyBandChange vmainMv vauxMv s
  | .channel3Dropout enter => Sys2Proof.Machine.execChannel3Dropout enter s
  | .railShortCheckEnd channel shorted => Sys2Proof.Machine.execRailShortCheckEnd channel shorted s
  | .efusePowerGood channel => Sys2Proof.Machine.execEfusePowerGood channel s
  | .efuseCurrentLimit channel enter => Sys2Proof.Machine.execEfuseCurrentLimit channel enter s
  | .fltNExternalHigh => Sys2Proof.Machine.execFltNExternalHigh s
  | .seqOutLeadTimeEnd => Sys2Proof.Machine.execSeqOutLeadTimeEnd s
  | .rstNRelease => Sys2Proof.Machine.execRstNRelease s
  | .controlRailsGood => Sys2Proof.Machine.execControlRailsGood s
  | .commandWindowOpen => Sys2Proof.Machine.execCommandWindowOpen s
  | .portLineFree port => Sys2Proof.Machine.execPortLineFree port s
  | .captureHoldoffEnd => Sys2Proof.Machine.execCaptureHoldoffEnd s
  | .nonceExpiry mb => Sys2Proof.Machine.execNonceExpiry mb s
  | .debugResume cp lp => Sys2Proof.Machine.execDebugResume cp lp s

end Sys2Proof.Machine
end

