-- ==== Sys2Proof/Machine/Step.lean ====
section
/-! DEFINITION. One step: the command at the front of the queue runs; on an empty queue one nanosecond passes. -/

namespace Sys2Proof.Machine

/-- What the machine does while no command waits: one nanosecond of model time passes, and of ring time once it is known
(log entry 1). -/
def idle (s : State) : State := elapse 1 s

/-- One step: exec of the command at the front of the queue, on the state with the queue's rest. -/
def step (s : State) : Host.Outcome State Fault Refusal :=
  match s.pending with
  | [] => .next (idle s)
  | c :: rest => exec c { s with pending := rest }

/-- s with the command that the word spells at the front of its queue; s where the word spells none (no row of the
table has bits). -/
def State.withFetchWord (s : State) (nbits w : Nat) : State :=
  match decodeTableWord nbits w with
  | some c => { s with pending := c :: s.pending }
  | none => s

end Sys2Proof.Machine
end

