-- ==== Sys2Proof/WellFormed.lean ====
section
/-! DEFINITION. What a well-formed command or event is: the lengths, ranges and reserved fields that the tables give its operands. The
machine answers an ill-formed command by the spec's own checks; well-formedness is a condition on terms alone. -/

namespace Sys2Proof

/-- A frame as Table 10-3 lays it out: BODY has LEN words, and only types 0x3 to 0x7 carry TTX. -/
def Frame.wf (f : Frame) : Bool :=
  decide (f.len.toNat ≤ 128) && decide (f.body.length = 4 * f.len.toNat) && (decide (3 ≤ f.ftype.toNat) || f.ttx == 0)

/-- A payload of parameter records of CFG_STAGE and RACK_STAGE (Tables 14-6 and 14-11). -/
def recordsWf (records : List Byte) : Bool := decide (5 ≤ records.length ∧ records.length ≤ 244)

/-- The data of MODEL_WRITE and IMAGE_WRITE: whole units of 8 bytes (Tables 14-10 and 14-12). -/
def unitsWf (data : List Byte) : Bool := decide (8 ≤ data.length ∧ data.length ≤ 232) && data.length % 8 == 0

/-- The answer of the pack's token to an authentication: a pack ID and a response of 16 bytes (R166, R382). -/
def answerWf (a : Option (BitVec 64 × List Byte)) : Bool :=
  match a with
  | some p => decide (p.2.length = 16)
  | none => true

/-- One converter result for each level (R129). -/
def cellsWf (cells : List CellIn) : Bool := decide (cells.length = 16)

/-- The inserted time of each level, in steps of 312.5 ps, within an interval of 500 ns (R154). -/
def insertedWf (l : List Nat) : Bool := decide (l.length = 16) && l.all fun t => decide (t ≤ 1600)

/-- A well-formed command or event. -/
def Instr.wf : Instr → Bool
  | .cfgStage _ records => recordsWf records
  | .rackStage _ records => recordsWf records
  | .cfgRead _ _ ids => decide (1 ≤ ids.length ∧ ids.length ≤ 120)
  | .modelWrite _ _ data => unitsWf data
  | .imageWrite _ _ data => unitsWf data
  | .relay _ _ rsv _ payload => rsv == 0 && decide (payload.length ≤ 240)
  | .authResponse _ _ mac => decide (mac.length = 32)
  | .identity _ challenge => decide (challenge.length = 32)
  | .keyInstall _ _ rsv blob => rsv == 0 && decide (blob.length = 48)
  | .lifecycleSet _ _ rsv auth => rsv == 0 && decide (auth.length = 96)
  | .registerWrite _ data => decide (1 ≤ data.length)
  | .sleepFrameReceived _ f => f.wf
  | .commandReceived _ f => f.wf
  | .statusReceived _ f => f.wf
  | .frameForward _ f => f.wf
  | .syncReceived _ f => f.wf
  | .msgReceived _ f => f.wf
  | .imageFrameReceived _ f => f.wf
  | .snapReceived _ f => f.wf
  | .cellSample cells => cellsWf cells
  | .integrationInterval l => insertedWf l
  | .ntcSlot r => decide (r ≤ 1000000)
  | .packAuthAttempt a => answerWf a
  | .rackStageReceived src records => recordsWf records && decide (1 ≤ src.toNat ∧ src.toNat ≤ 32)
  | .versionReport src data => decide (data.length = 16) && decide (1 ≤ src.toNat ∧ src.toNat ≤ 32)
  | .activationRequest src data => decide (data.length = 16) && decide (1 ≤ src.toNat ∧ src.toNat ≤ 32)
  | .grantReceived data => decide (data.length = 4)
  | .dieTempReading power sensor _ => !power || decide (sensor.val < 6)
  | .sysInfo _ | .sysReset _ _ | .tempRead _ | .faultRead _ | .faultClear _ _ | .faultInject _ _ _ _ _ | .blockGate _ _ _
  | .cfgCommit _ _ | .cfgDiscard _ | .cfgState _ | .ladderStatus _ | .ladderPark _ _ | .shelfBypass _ _ | .levelClear _ _
  | .ladderCheck _ | .measRead _ | .ntcRead _ | .senseStatus _ | .switchBins _ _ | .senseClear _ _ | .cellAccount _ _ _
  | .packInfo _ | .packAuth _ | .engineOutput _ _ _ | .spectrum _ _ _ | .modelInfo _ _ | .rackStatus _
  | .rackDispatch _ _ _ _ _ _ | .rackBus _ _ _ | .holdupClear _ | .rackSleep _ | .rackCommit _ _ | .handover _ | .ringStatus _
  | .auxStatus _ | .railClear _ _ | .efuseClear _ _ | .efusePermit _ _ _ | .stepControl _ _ _ | .lastFault _ _ | .recSeek _ _ _
  | .recRead _ _ | .journalInfo _ | .journalCompact _ | .capture _ | .authChallenge _ _ | .identityKey _ | .imageVerify _
  | .imageRelay _ | .imageStatus _ | .activate _ _ | .counterRead _ _ _ _ _ | .snapshot _ | .snapOrder _ _ | .histRead _ _ _ _ _
  | .preciseRead _ _ | .traceRead _ _ | .hstatRead _ _ | .fstatWrite _ | .doorSync | .doorDrop | .reqwinPush _ | .rspwinPop _
  | .hcsNTimeout | .requestPop | .refusalResponse _ | .finalResponse _ _ | .responsePush _ | .holdRelease | .twbWindowWrite _
  | .twbWindowRead _ | .twbStatusRead _ | .uartByteReceived _ _ | .uartIdle | .powerOnReset | .notReadyClear
  | .shoreClockToCrystal | .brownOut | .controllerReset | .rstNLow _ | .cpWatchdogExpiry | .lpWatchdogExpiry | .recoveryComplete
  | .supplySwitchover _ | .holdupEntry | .finalCounterLatch | .holdupExit | .holdupCollapse | .vholdCharged _ _ _ _
  | .vholdChargeTimeout | .gateSupplyUp _ _ _ | .cellScan _ _ _ _ | .wakeCurrent _ _ | .wakeToneDetected _ | .wakeIn _ | .wakeTimerExpiry
  | .watchToRun | .watchToStill | .stillDwellEnd | .sleepVoteTimeout | .sleepVeto _ | .stillEntry | .firstSyncAfterWake
  | .shoreCrystalLoss | .referenceLoss | .holdoverEntry | .timeLost | .tsyncPulse | .shoreMirrorRefresh | .controlPeriod
  | .frameBoundary | .carrierPeak | .commandMissing | .holdExpiry | .holdPark | .guardCellLimit _ _ | .guardParkAll _
  | .guardRelease _ | .gateStuck _ _ | .shelfBypassForceOpen | .admission | .preStartCheckLevel _ _ _ | .startRampStep
  | .startAbort _ _ | .freeze | .freezeExpiry | .parkStep | .packDisconnect | .packDisconnectDone _ | .packDisconnectTimeout
  | .shuntSample _ _ | .hallSample _ | .cellMeans1ms | .tapTestsComplete _ _ | .stackSample _ _ | .switchDropSlot _ _
  | .correctionUpdate10ms _ | .socUpdate | .counterCommit | .anchorHoldExpiry _ | .anchorEnd _ | .tokenRead _ | .engineStep
  | .engineStepComplete _ | .engineOverrun | .warmupTimeout _ | .ensembleResample | .learnedSetWrite | .engineRestart
  | .impedanceWindowEnd _ _ | .ditherChip | .throttleChange | .wellheadCycle | .busHoldupExit | .statusSend | .statusUnscheduled | .leaderLoss
  | .successorTakeover | .rankTakeover | .plannedHandover | .leaseExpiry | .checkpointSend | .checkpointExpiry
  | .rackStageTimeout | .rackOrderReceived _ _ | .rackCommitApply | .pendingDiscard | .syncSend _ | .trainingBurst _ _
  | .portDown _ | .msgRetry _ | .suspendTimeout _ | .imageFrameSend _ | .snapLatch | .sequenceStep _ | .railPowerGood _
  | .softStartEnd _ _ | .railLatchOff _ _ _ | .railAutoClear _ | .efusePrecheckEnd _ _ | .efuseGateWindow _ _ | .efuseTrip _ _ _
  | .efuseFaultTimer _ _ | .orderedShutdownFall _ | .fltNExternalLow | .fltNPulseEnd | .fltNRestart | .safeModeExit
  | .safeModeTimeout | .faultEvent _ _ _ _ | .severeEnd _ | .injectionEnd _ | .compactionSlice | .journalReplay
  | .deferredRecordFlush | .periodicSnapshot | .timeMark | .scrubPage _ _ | .captureTrigger _ | .captureSample | .captureEnd
  | .grantExpiry | .grantTimeout | .activationRestart | .trialEnd | .authLockoutEnd _ | .busATransaction _ | .busATimeout
  | .tokenPoll _ | .counterOverflowIrq _ _ | .debugRead _ _ | .debugHalt _ _ _ | .haltPendingRelease | .forcedHalt
  | .supplyBandChange _ _ | .channel3Dropout _ | .railShortCheckEnd _ _ | .efusePowerGood _ | .efuseCurrentLimit _ _
  | .fltNExternalHigh | .seqOutLeadTimeEnd | .rstNRelease | .controlRailsGood | .commandWindowOpen | .portLineFree _
  | .captureHoldoffEnd | .nonceExpiry _ | .debugResume _ _ => true

end Sys2Proof
end

