-- ==== Sys2Proof/Safety.lean ====
section
/-! DEFINITION. The terms in which claims speak: when a command is served, what its answer is, and the conditions every run keeps. -/

namespace Sys2Proof.Machine

/-! Commands at a mailbox -/

/-- The mailbox takes a response at once: fewer than eight wait and none is held (R303). -/
abbrev Room (mb : Mailbox) (s : State) : Prop := s.host.mail.length = 4 ∧ (mail s mb).rspQ.length < 8 ∧ (mail s mb).held = []

/-- The level checks of Table 13-9 pass: the claim is within the session level, and the command's level within the claim (R305). -/
abbrev LevelOk (req : Req) (least : Access) (s : State) : Prop :=
  Access.code req.level ≤ sessionCode s req.mb ∧ Access.code least ≤ Access.code req.level

/-- The checks that every command shares pass, in the order of Table 13-9 (R307, R312, R314, R315). -/
abbrev Serves (req : Req) (r : Rules) (s : State) : Prop :=
  LevelOk req r.least s ∧ tagInUse req s = false ∧ (s.flt.safe = true → r.least = .monitor)
  ∧ (s.clk.pstate = .watch → r.watch = false) ∧ (r.leader = true → s.rack.wellhead = true) ∧ (r.nv = true → nvRefusal s = none)

/-- The code of the first check of Table 13-9 and R312 to R315 that a command fails: REFUSED, BAD_FIELD, BAD_STATE, NOT_LEADER, TEMP_WINDOW
or NV_UNAVAILABLE; none where it is served. -/
def firstFailure (req : Req) (r : Rules) (s : State) : Option Byte :=
  if sessionCode s req.mb < Access.code req.level ∨ Access.code req.level < Access.code r.least then some 0x20
  else if tagInUse req s then some 0x11
  else if s.flt.safe ∧ r.least ≠ .monitor then some 0x12
  else if s.clk.pstate = .watch ∧ r.watch then some 0x12
  else if r.leader ∧ s.rack.wellhead = false then some 0x40
  else if r.nv then nvRefusal s
  else none

/-- The command's checks pass and its mailbox takes the response at once. -/
abbrev Open (req : Req) (r : Rules) (s : State) : Prop := Serves req r s ∧ Room req.mb s

/-- The last response of the command's mailbox in t is its final response with these fields, behind those that waited in s. -/
abbrev Replied (req : Req) (op : Nat) (status : Byte) (fields : List Byte) (s t : State) : Prop :=
  (mail t req.mb).rspQ = (mail s req.mb).rspQ ++ [response req op true status fields]

/-- The command has answered ACCEPTED or POSTPONED and is listed as running, behind those that ran in s (R308). -/
def Accepted (req : Req) (op : Nat) (status : Byte) (s t : State) : Prop :=
  (mail t req.mb).rspQ = (mail s req.mb).rspQ ++ [response req op false status []]
  ∧ ∃ args, ⟨req, BitVec.ofNat 16 op, args, 0, [], false, s.clk.now⟩ ∈ t.host.running

/-! Frames -/

/-- A frame that arrives on a port is applied here: the node takes part in the ring, the port is up, the loop processor applies frames, and
nothing of R235 rejects it as it stands once it has arrived whole. -/
abbrev Applies (p : Port) (f : Frame) (s : State) : Prop :=
  onRing s = true ∧ (portOf s p).state = .up ∧ appliesFrames s f = true ∧ keyGone s = false ∧ whyRejected (endReceipt p f s) f = none

/-! Invariants -/

/-- The model files and the patch slots are in canonical form. -/
abbrev StoresWf (s : State) : Prop :=
  Memory.wf s.nv.fileActive = true ∧ Memory.wf s.nv.fileStaged = true ∧ Memory.wf s.nv.slot0 = true ∧ Memory.wf s.nv.slot1 = true

/-- No level holds both gates on, and a parked level holds its insert gate off (R84, Table 4-1). -/
abbrev GatesApart (s : State) : Prop :=
  ∀ l ∈ s.lad.levels, ¬(l.insGate = true ∧ l.bypGate = true) ∧ (l.st = .parked → l.insGate = false)

/-- Each of the four mailboxes has two queues of at most 8 entries (R302). -/
abbrev QueuesBounded (s : State) : Prop := s.host.mail.length = 4 ∧ ∀ m ∈ s.host.mail, m.reqQ.length ≤ 8 ∧ m.rspQ.length ≤ 8

/-! Commands as mailbox entries -/

/-- What a request of the mailboxes travels as: its opcode and the bytes of its payload (Tables 14-1 to 14-13); none for the rows that no
entry carries. -/
def requestOf : Instr → Option (Req × Nat × List Byte)
  | .sysInfo req => some (req, 0x0101, [])
  | .sysReset req kind => some (req, 0x0102, [kind])
  | .tempRead req => some (req, 0x0103, [])
  | .faultRead req => some (req, 0x0104, [])
  | .faultClear req mask => some (req, 0x0105, bvBytes 4 mask)
  | .faultInject req target kind value duration => some (req, 0x0106, bvBytes 2 target ++ [kind] ++ bvBytes 4 value ++ bvBytes 4 duration)
  | .blockGate req block action => some (req, 0x0107, [block, action])
  | .cfgStage req records => some (req, 0x0201, records)
  | .cfgCommit req expect => some (req, 0x0202, bvBytes 4 expect)
  | .cfgDiscard req => some (req, 0x0203, [])
  | .cfgRead req source ids => some (req, 0x0204, source :: ids.flatMap (bvBytes 2))
  | .cfgState req => some (req, 0x0205, [])
  | .ladderStatus req => some (req, 0x0301, [])
  | .ladderPark req mask => some (req, 0x0302, bvBytes 2 mask)
  | .shelfBypass req action => some (req, 0x0303, [action])
  | .levelClear req mask => some (req, 0x0304, bvBytes 2 mask)
  | .ladderCheck req => some (req, 0x0305, [])
  | .measRead req => some (req, 0x0401, [])
  | .ntcRead req => some (req, 0x0402, [])
  | .senseStatus req => some (req, 0x0403, [])
  | .switchBins req level => some (req, 0x0404, [level])
  | .senseClear req mask => some (req, 0x0405, bvBytes 4 mask)
  | .cellAccount req first latch => some (req, 0x0501, [first, latch])
  | .packInfo req => some (req, 0x0502, [])
  | .packAuth req => some (req, 0x0503, [])
  | .engineOutput req first num => some (req, 0x0601, [first, num])
  | .spectrum req level part => some (req, 0x0602, [level, part])
  | .modelWrite req offset data => some (req, 0x0603, bvBytes 4 offset ++ data)
  | .modelInfo req slot => some (req, 0x0604, [slot])
  | .rackStatus req => some (req, 0x0701, [])
  | .rackDispatch req vd tApply limDis limCh kind => some (req, 0x0702, bvBytes 2 vd ++ bvBytes 8 tApply ++ bvBytes 2 limDis ++ bvBytes 2 limCh ++ [kind])
  | .rackBus req vbus contactor => some (req, 0x0703, bvBytes 2 vbus ++ [contactor])
  | .holdupClear req => some (req, 0x0704, [])
  | .rackSleep req => some (req, 0x0705, [])
  | .rackStage req records => some (req, 0x0706, records)
  | .rackCommit req digest => some (req, 0x0707, bvBytes 8 digest)
  | .handover req => some (req, 0x0708, [])
  | .ringStatus req => some (req, 0x0709, [])
  | .relay req dst rsv inner payload => some (req, 0x070A, [dst, rsv] ++ bvBytes 2 inner ++ payload)
  | .auxStatus req => some (req, 0x0801, [])
  | .railClear req channel => some (req, 0x0802, [channel])
  | .efuseClear req channel => some (req, 0x0803, [channel])
  | .efusePermit req channel permit => some (req, 0x0804, [channel, permit])
  | .stepControl req code action => some (req, 0x0805, [code, action])
  | .lastFault req channel => some (req, 0x0806, [channel])
  | .recSeek req mode key => some (req, 0x0901, mode :: bvBytes 8 key)
  | .recRead req num => some (req, 0x0902, [num])
  | .journalInfo req => some (req, 0x0903, [])
  | .journalCompact req => some (req, 0x0904, [])
  | .capture req => some (req, 0x0905, [])
  | .authChallenge req level => some (req, 0x0A01, [level])
  | .authResponse req level mac => some (req, 0x0A02, level :: mac)
  | .identity req challenge => some (req, 0x0A03, challenge)
  | .identityKey req => some (req, 0x0A04, [])
  | .keyInstall req slot rsv blob => some (req, 0x0A05, slot :: rsv :: blob)
  | .lifecycleSet req target rsv auth => some (req, 0x0A06, target :: rsv :: auth)
  | .imageWrite req offset data => some (req, 0x0B01, bvBytes 4 offset ++ data)
  | .imageVerify req => some (req, 0x0B02, [])
  | .imageRelay req => some (req, 0x0B03, [])
  | .imageStatus req => some (req, 0x0B04, [])
  | .activate req expect => some (req, 0x0B05, bvBytes 4 expect)
  | .counterRead req first num source order => some (req, 0x0C01, [first, num, source] ++ bvBytes 4 order)
  | .snapshot req => some (req, 0x0C02, [])
  | .snapOrder req tLatch => some (req, 0x0C03, bvBytes 8 tLatch)
  | .histRead req hist half source order => some (req, 0x0C04, [hist, half, source] ++ bvBytes 4 order)
  | .preciseRead req first => some (req, 0x0C05, [first])
  | .traceRead req offset => some (req, 0x0C06, bvBytes 4 offset)
  | _ => none

/-- The rules under which a command of the mailboxes runs: its lowest level, whether Watch bars it, whether the Wellhead alone runs it, and
whether it needs a commit (Tables 14-1 to 14-13, R312, R315). -/
def rulesOf (s : State) : Instr → Option Rules
  | .sysReset _ _ | .faultClear _ _ | .faultInject _ _ _ _ _ | .blockGate _ _ _ | .cfgStage _ _ | .cfgDiscard _ | .imageWrite _ _ _
  | .imageVerify _ | .activate _ _ | .traceRead _ _ => some (.atLevel .service)
  | .cfgCommit _ _ | .levelClear _ _ | .senseClear _ _ | .modelWrite _ _ _ | .journalCompact _ | .keyInstall _ _ _ _
  | .lifecycleSet _ _ _ _ => some ⟨.service, false, false, true⟩
  | .ladderPark _ _ | .shelfBypass _ _ | .ladderCheck _ | .packAuth _ | .railClear _ _ | .efuseClear _ _ | .efusePermit _ _ _
  | .stepControl _ _ _ | .capture _ => some (.atLevel .operator)
  | .rackDispatch _ _ _ _ _ _ | .rackBus _ _ _ | .holdupClear _ | .rackSleep _ => some ⟨.operator, true, true, false⟩
  | .rackStage _ _ | .rackCommit _ _ | .handover _ | .snapOrder _ _ => some ⟨.service, true, true, false⟩
  | .rackStatus _ => some ⟨.monitor, true, true, false⟩
  | .relay _ _ _ _ _ | .engineOutput _ _ _ | .spectrum _ _ _ => some ⟨.monitor, true, false, false⟩
  | .imageRelay _ => some ⟨.service, true, false, false⟩
  | .counterRead _ _ _ _ _ | .snapshot _ | .histRead _ _ _ _ _ | .preciseRead _ _ => some (counterRules s)
  | c => if (requestOf c).isSome then some (.atLevel .monitor) else none

/-! What each command may change -/

/-- The areas of the state that frames speak of: the fields of State but for the queue and the number of the next free value, with the two
model files and the two patch slots apart from the rest of the store. -/
inductive Area where
  | lad | mod | clk | sup | meas | chg | eng | rack | ring | aux | flt | host | cfg | key | upd | busA | cnt | dbg | nv | fileActive | fileStaged
  | slots
  deriving DecidableEq, Repr

/-- The area is the same in both states. -/
def Same : Area → State → State → Prop
  | .lad, s, t => t.lad = s.lad
  | .mod, s, t => t.mod = s.mod
  | .clk, s, t => t.clk = s.clk
  | .sup, s, t => t.sup = s.sup
  | .meas, s, t => t.meas = s.meas
  | .chg, s, t => t.chg = s.chg
  | .eng, s, t => t.eng = s.eng
  | .rack, s, t => t.rack = s.rack
  | .ring, s, t => t.ring = s.ring
  | .aux, s, t => t.aux = s.aux
  | .flt, s, t => t.flt = s.flt
  | .host, s, t => t.host = s.host
  | .cfg, s, t => t.cfg = s.cfg
  | .key, s, t => t.key = s.key
  | .upd, s, t => t.upd = s.upd
  | .busA, s, t => t.busA = s.busA
  | .cnt, s, t => t.cnt = s.cnt
  | .dbg, s, t => t.dbg = s.dbg
  | .nv, s, t => t.nv = { s.nv with fileActive := t.nv.fileActive, fileStaged := t.nv.fileStaged, slot0 := t.nv.slot0, slot1 := t.nv.slot1 }
  | .fileActive, s, t => t.nv.fileActive = s.nv.fileActive
  | .fileStaged, s, t => t.nv.fileStaged = s.nv.fileStaged
  | .slots, s, t => t.nv.slot0 = s.nv.slot0 ∧ t.nv.slot1 = s.nv.slot1

/-- The areas that a command may change; every other area it leaves as it is. -/
def changes : Instr → List Area
  | .sysInfo _ | .sysReset _ _ | .tempRead _ | .faultRead _ | .cfgStage _ _ | .cfgDiscard _ | .cfgRead _ _ _ | .cfgState _
  | .ladderStatus _ | .measRead _ | .ntcRead _ | .senseStatus _ | .switchBins _ _ | .cellAccount _ _ _ | .packInfo _ | .engineOutput _ _ _
  | .spectrum _ _ _ | .modelInfo _ _ | .rackStatus _ | .ringStatus _ | .auxStatus _ | .lastFault _ _ | .recSeek _ _ _ | .journalInfo _
  | .authChallenge _ _ | .authResponse _ _ _ | .identity _ _ | .identityKey _ | .imageStatus _ | .counterRead _ _ _ _ _ | .snapshot _
  | .histRead _ _ _ _ _ | .preciseRead _ _ | .traceRead _ _ | .reqwinPush _ | .twbWindowWrite _ | .uartByteReceived _ _ =>
    [.host, .cnt]
  | .faultClear _ _ =>
    [.lad, .flt, .host, .cnt]
  | .faultInject _ _ _ _ _ | .shuntSample _ _ =>
    [.lad, .mod, .clk, .meas, .chg, .eng, .rack, .ring, .flt, .host, .cnt, .nv]
  | .blockGate _ _ _ =>
    [.eng, .host, .cnt]
  | .cfgCommit _ _ =>
    [.lad, .clk, .chg, .eng, .aux, .flt, .host, .cfg, .cnt, .nv, .fileActive]
  | .ladderPark _ _ =>
    [.lad, .mod, .host, .cnt]
  | .shelfBypass _ _ =>
    [.lad, .mod, .clk, .rack, .ring, .host, .cnt, .nv]
  | .levelClear _ _ =>
    [.lad, .flt, .host, .cnt, .nv]
  | .ladderCheck _ =>
    [.lad, .host, .cnt]
  | .senseClear _ _ =>
    [.meas, .flt, .host, .cnt, .nv]
  | .packAuth _ =>
    [.chg, .host, .busA, .cnt]
  | .modelWrite _ _ _ =>
    [.flt, .host, .cnt, .nv, .fileStaged]
  | .rackDispatch _ _ _ _ _ _ | .rackBus _ _ _ | .holdupClear _ =>
    [.rack, .host, .cnt]
  | .rackSleep _ | .handover _ | .imageRelay _ =>
    [.rack, .ring, .host, .cnt]
  | .rackStage _ _ =>
    [.rack, .ring, .flt, .host, .cfg, .cnt, .nv]
  | .rackCommit _ _ =>
    [.rack, .ring, .host, .cfg, .cnt, .nv]
  | .relay _ _ _ _ _ | .responsePush _ =>
    [.ring, .host, .cnt]
  | .railClear _ _ | .efuseClear _ _ | .efusePermit _ _ _ | .stepControl _ _ _ | .fltNExternalLow | .efusePowerGood _ =>
    [.aux, .flt, .host, .cnt, .nv]
  | .recRead _ _ | .guardCellLimit _ _ | .guardParkAll _ | .gateStuck _ _ | .preStartCheckLevel _ _ _ | .portDown _ | .compactionSlice =>
    [.lad, .mod, .chg, .rack, .ring, .flt, .host, .cnt, .nv]
  | .journalCompact _ | .capture _ | .captureEnd =>
    [.flt, .host, .cnt, .nv]
  | .keyInstall _ _ _ _ =>
    [.chg, .flt, .host, .key, .busA, .cnt, .nv]
  | .lifecycleSet _ _ _ _ =>
    [.lad, .mod, .clk, .rack, .ring, .flt, .host, .key, .cnt, .nv]
  | .imageWrite _ _ _ =>
    [.flt, .host, .upd, .cnt, .nv, .slots]
  | .imageVerify _ | .grantReceived _ =>
    [.host, .upd, .cnt]
  | .activate _ _ =>
    [.rack, .ring, .host, .upd, .cnt]
  | .snapOrder _ _ =>
    [.rack, .ring, .host, .cnt, .nv]
  | .hstatRead _ _ | .doorSync | .doorDrop | .rspwinPop _ | .hcsNTimeout | .twbWindowRead _ | .twbStatusRead _ | .uartIdle =>
    [.host]
  | .fstatWrite _ =>
    [.flt]
  | .registerWrite _ _ =>
    [.flt, .host, .cnt]
  | .requestPop =>
    [.lad, .mod, .clk, .meas, .chg, .eng, .rack, .ring, .aux, .flt, .host, .cfg, .key, .upd, .busA, .cnt, .nv, .fileActive, .fileStaged, .slots]
  | .refusalResponse _ =>
    [.lad, .clk, .ring, .flt, .host, .key, .cnt, .nv]
  | .finalResponse _ _ =>
    [.lad, .clk, .meas, .chg, .eng, .rack, .ring, .host, .cfg, .key, .cnt, .nv, .fileActive, .fileStaged]
  | .holdRelease =>
    [.eng, .host]
  | .powerOnReset | .brownOut | .controllerReset | .rstNLow _ | .cpWatchdogExpiry | .lpWatchdogExpiry | .cellScan _ _ _ _
  | .wakeCurrent _ _ | .wakeToneDetected _ | .wakeIn _ | .wakeTimerExpiry | .stillDwellEnd | .softStartEnd _ _ | .railLatchOff _ _ _
  | .activationRestart | .railShortCheckEnd _ _ =>
    [.lad, .mod, .clk, .sup, .meas, .chg, .eng, .rack, .ring, .aux, .flt, .host, .cfg, .key, .upd, .busA, .cnt, .dbg, .nv, .fileActive,
     .fileStaged, .slots]
  | .notReadyClear =>
    [.clk, .host]
  | .shoreClockToCrystal | .rstNRelease | .controlRailsGood =>
    [.clk]
  | .recoveryComplete =>
    [.lad, .mod, .clk, .meas, .chg, .eng, .rack, .ring, .flt, .host, .cfg, .key, .upd, .cnt, .nv, .fileActive, .fileStaged]
  | .supplySwitchover _ =>
    [.sup, .flt, .cnt, .nv]
  | .holdupEntry =>
    [.lad, .mod, .sup, .chg, .rack, .ring, .aux, .flt, .host, .cnt, .nv]
  | .finalCounterLatch =>
    [.sup, .chg, .nv]
  | .holdupExit =>
    [.mod, .sup, .chg, .rack, .ring, .aux, .flt, .host, .cnt, .nv]
  | .holdupCollapse =>
    [.lad, .clk, .sup, .chg, .ring, .aux]
  | .vholdCharged _ _ _ _ | .vholdChargeTimeout =>
    [.sup]
  | .gateSupplyUp _ _ _ =>
    [.lad]
  | .watchToRun =>
    [.lad, .mod, .clk, .meas, .chg, .eng, .rack, .ring, .aux, .flt, .host, .cfg, .key, .upd, .cnt, .nv]
  | .watchToStill | .stillEntry =>
    [.lad, .mod, .clk, .meas, .chg, .eng, .rack, .ring, .aux, .flt, .host, .cfg, .upd, .busA, .cnt, .dbg, .nv]
  | .sleepFrameReceived _ _ | .shoreCrystalLoss | .commandReceived _ _ | .packDisconnectTimeout | .statusReceived _ _ | .leaderLoss
  | .successorTakeover | .snapReceived _ _ | .safeModeTimeout =>
    [.lad, .mod, .clk, .chg, .rack, .ring, .flt, .host, .cnt, .nv]
  | .sleepVoteTimeout =>
    [.clk, .rack, .ring, .host, .cnt, .nv]
  | .sleepVeto _ =>
    [.clk, .rack, .ring, .host, .cnt]
  | .firstSyncAfterWake =>
    [.clk, .meas, .ring, .flt, .cnt, .nv]
  | .referenceLoss | .efusePrecheckEnd _ _ | .efuseGateWindow _ _ | .efuseFaultTimer _ _ =>
    [.lad, .mod, .clk, .chg, .rack, .ring, .aux, .flt, .host, .cnt, .nv]
  | .holdoverEntry | .tsyncPulse | .captureHoldoffEnd =>
    [.clk, .nv]
  | .timeLost =>
    [.mod, .clk, .chg, .rack, .ring, .aux, .flt, .host, .cnt, .nv]
  | .shoreMirrorRefresh | .snapLatch =>
    [.clk, .cnt, .nv]
  | .controlPeriod | .journalReplay =>
    [.lad, .mod, .clk, .meas, .chg, .rack, .ring, .flt, .host, .cfg, .cnt, .nv]
  | .frameBoundary =>
    [.mod, .clk, .chg, .eng, .cfg, .nv]
  | .carrierPeak | .commandMissing =>
    [.mod, .clk, .cnt, .nv]
  | .holdExpiry =>
    [.mod, .clk, .aux, .flt, .host, .cnt, .nv]
  | .holdPark | .guardRelease _ | .startRampStep =>
    [.lad, .clk, .nv]
  | .shelfBypassForceOpen =>
    [.lad, .mod]
  | .admission =>
    [.lad, .mod, .clk, .meas, .nv]
  | .startAbort _ _ =>
    [.lad, .mod, .flt, .host, .cnt, .nv]
  | .freeze =>
    [.lad, .mod, .cnt]
  | .freezeExpiry =>
    [.lad, .clk, .cnt, .nv]
  | .parkStep =>
    [.lad, .mod, .clk, .chg, .rack, .ring, .host, .cnt, .nv]
  | .packDisconnect =>
    [.lad, .aux, .flt, .host, .cnt, .nv]
  | .packDisconnectDone _ =>
    [.lad, .mod, .rack, .ring, .host, .cnt]
  | .cellSample _ =>
    [.lad, .mod, .clk, .meas, .eng, .flt, .nv]
  | .hallSample _ | .cellMeans1ms | .tapTestsComplete _ _ | .ntcSlot _ | .rankTakeover | .syncReceived _ _ =>
    [.lad, .mod, .clk, .meas, .chg, .rack, .ring, .flt, .host, .cnt, .nv]
  | .integrationInterval _ =>
    [.mod, .clk, .chg, .eng]
  | .stackSample _ _ =>
    [.clk, .meas, .chg, .eng, .flt, .busA, .cnt, .nv]
  | .switchDropSlot _ _ =>
    [.clk, .meas, .nv]
  | .correctionUpdate10ms _ =>
    [.clk, .meas, .aux, .nv]
  | .socUpdate | .counterCommit | .anchorHoldExpiry _ =>
    [.clk, .chg, .flt, .cnt, .nv]
  | .anchorEnd _ =>
    [.clk, .chg, .nv]
  | .tokenRead _ =>
    [.lad, .mod, .chg, .rack, .ring, .flt, .host, .busA, .cnt, .nv]
  | .packAuthAttempt _ | .busATransaction _ | .busATimeout | .tokenPoll _ =>
    [.lad, .mod, .clk, .chg, .eng, .rack, .ring, .flt, .host, .key, .busA, .cnt, .nv]
  | .engineStep =>
    [.lad, .mod, .clk, .chg, .eng, .rack, .ring, .flt, .host, .cfg, .cnt, .nv]
  | .engineStepComplete _ | .dieTempReading _ _ _ | .faultEvent _ _ _ _ =>
    [.lad, .mod, .chg, .eng, .rack, .ring, .flt, .host, .cnt, .nv]
  | .engineOverrun | .warmupTimeout _ | .scrubPage _ _ =>
    [.lad, .mod, .clk, .chg, .eng, .rack, .ring, .flt, .host, .cnt, .nv]
  | .ensembleResample | .throttleChange =>
    [.clk, .eng, .cnt, .nv]
  | .learnedSetWrite | .engineRestart | .ditherChip =>
    [.clk, .eng, .nv]
  | .impedanceWindowEnd _ _ =>
    [.eng, .cnt]
  | .wellheadCycle =>
    [.lad, .mod, .clk, .rack, .ring, .flt, .host, .cnt, .nv]
  | .busHoldupExit | .checkpointExpiry | .grantExpiry =>
    [.clk, .rack, .nv]
  | .statusSend =>
    [.mod, .clk, .rack, .ring, .host, .cnt, .nv]
  | .statusUnscheduled =>
    [.mod, .rack, .ring, .host, .cnt]
  | .plannedHandover =>
    [.lad, .mod, .clk, .chg, .rack, .ring, .flt, .host, .upd, .cnt, .nv]
  | .leaseExpiry =>
    [.clk, .rack, .host, .nv]
  | .checkpointSend =>
    [.clk, .rack, .ring, .cnt, .nv]
  | .rackStageReceived _ _ =>
    [.ring, .flt, .cfg, .cnt, .nv]
  | .rackStageTimeout =>
    [.clk, .rack, .ring, .host, .cfg, .cnt, .nv]
  | .rackOrderReceived _ _ =>
    [.cfg, .cnt, .nv]
  | .rackCommitApply =>
    [.clk, .rack, .flt, .host, .cfg, .cnt, .nv]
  | .pendingDiscard =>
    [.clk, .rack, .cfg, .cnt, .nv]
  | .frameForward _ _ | .activationRequest _ _ =>
    [.rack, .ring, .cnt]
  | .syncSend _ =>
    [.clk, .ring, .cnt, .nv]
  | .trainingBurst _ _ | .suspendTimeout _ | .commandWindowOpen | .portLineFree _ =>
    [.clk, .ring, .nv]
  | .msgReceived _ _ =>
    [.lad, .mod, .clk, .chg, .rack, .ring, .flt, .host, .cfg, .cnt, .nv]
  | .msgRetry _ | .imageFrameSend _ =>
    [.clk, .ring, .host, .cnt, .nv]
  | .imageFrameReceived _ _ =>
    [.lad, .mod, .clk, .chg, .rack, .ring, .flt, .host, .upd, .cnt, .nv, .slots]
  | .sequenceStep _ | .railAutoClear _ | .fltNRestart | .seqOutLeadTimeEnd =>
    [.clk, .aux, .flt, .cnt, .nv]
  | .railPowerGood _ | .orderedShutdownFall _ | .fltNPulseEnd =>
    [.clk, .aux, .flt, .host, .cnt, .nv]
  | .efuseTrip _ _ _ =>
    [.lad, .mod, .chg, .rack, .ring, .aux, .flt, .host, .cnt, .nv]
  | .safeModeExit =>
    [.clk, .eng, .flt, .nv]
  | .severeEnd _ | .injectionEnd _ =>
    [.clk, .flt, .nv]
  | .deferredRecordFlush =>
    [.aux, .cnt, .nv]
  | .periodicSnapshot | .timeMark | .captureSample =>
    [.clk, .flt, .cnt, .nv]
  | .captureTrigger _ =>
    [.flt, .cnt, .nv]
  | .versionReport _ _ =>
    [.rack]
  | .grantTimeout =>
    [.clk, .host, .upd, .cnt, .nv]
  | .trialEnd =>
    [.clk, .key, .upd, .nv]
  | .authLockoutEnd _ | .nonceExpiry _ =>
    [.clk, .host, .nv]
  | .counterOverflowIrq _ _ =>
    [.cnt]
  | .debugRead _ _ =>
    [.lad, .mod, .chg, .eng, .rack, .ring, .flt, .host, .cnt, .dbg, .nv]
  | .debugHalt _ _ _ | .haltPendingRelease =>
    [.dbg]
  | .forcedHalt =>
    [.lad, .mod, .cnt, .dbg]
  | .supplyBandChange _ _ =>
    [.sup, .aux]
  | .channel3Dropout _ | .efuseCurrentLimit _ _ =>
    [.aux]
  | .fltNExternalHigh =>
    [.aux, .flt, .cnt, .nv]
  | .debugResume _ _ =>
    [.lad, .clk, .cnt, .dbg]

/-- The commands of the host port, the two-wire target and the asynchronous receiver (13_host_port_and_mailboxes.md). -/
def isLinkRow : Instr → Bool
  | .hstatRead _ _ | .fstatWrite _ | .registerWrite _ _ | .doorSync | .doorDrop | .reqwinPush _ | .rspwinPop _ | .hcsNTimeout | .twbWindowWrite _
  | .twbWindowRead _ | .twbStatusRead _ | .uartByteReceived _ _ | .uartIdle | .responsePush _ | .refusalResponse _ | .finalResponse _ _
  | .holdRelease => true
  | _ => false

end Sys2Proof.Machine
end

