-- ==== Sys2Proof/Certificates/Slice0/Obligations.lean ====
section
/-! DEFINITION. The statements for the provers: one def of type Prop each, in the order of OBLIGATIONS.json. -/

open Sys2Proof Sys2Proof.Machine

/-- A step runs the command at the front of the queue; with an empty queue only time passes (log entry 1). Rests on 00_scope.md,
95_what_each_step_holds.md. -/
def Obligations.AStepRunsTheFrontCommand : Prop :=
  (∀ (c : Instr) (rest : List Instr) (s : State), step { s with pending := c :: rest } = exec c { s with pending := rest })
  ∧ (∀ s : State, s.pending = [] → ∃ t, step s = .next t ∧ t.clk.now = s.clk.now + 1
      ∧ t = { s with clk := t.clk, nv := { s.nv with secRecs := t.nv.secRecs } })

/-- No command changes the queue of waiting commands. Rests on 00_scope.md, 95_what_each_step_holds.md. -/
def Obligations.ACommandLeavesTheQueueAlone : Prop :=
  ∀ (c : Instr) (s t : State), exec c s = .next t → t.pending = s.pending

/-- A command of the mailboxes and local links changes only the areas of the state that its row names. Rests on 13_host_port_and_mailboxes.md,
14_command_reference.md, 17_local_buses.md. -/
def Obligations.CommandsChangeOnlyTheirAreas : Prop :=
  ∀ (c : Instr) (s t : State), ((requestOf c).isSome = true ∨ isLinkRow c = true) → exec c s = .next t →
    ∀ a : Area, a ∉ changes c → Same a s t

/-- Only the commands named change the supplies, keys, configuration, update, bus A, debug, model files and patch slots. Rests on
02_package_and_supplies.md, 14_command_reference.md, 15_storage_and_recorder.md, 16_security_lifecycle_update.md, 17_local_buses.md,
18_counters_trace_debug.md. -/
def Obligations.FewCommandsChangeKeysImagesOrModels : Prop :=
  ∀ (c : Instr) (s t : State), exec c s = .next t →
    ∀ a ∈ ([.sup, .cfg, .key, .upd, .busA, .dbg, .fileActive, .fileStaged, .slots] : List Area), a ∉ changes c → Same a s t

/-- Every step keeps the model files and patch slots in canonical form. Rests on 15_storage_and_recorder.md, 16_security_lifecycle_update.md. -/
def Obligations.StoresStayCanonical : Prop :=
  ∀ s t : State, StoresWf s → step s = .next t → StoresWf t

/-- No step turns on both gates of a level, or the insert gate of a parked level. Rests on 04_cell_ladder.md, 05_ladder_modulation.md. -/
def Obligations.NoLevelHasBothGatesOn : Prop :=
  ∀ s t : State, GatesApart s → step s = .next t → GatesApart t

/-- Every step keeps the four mailboxes with two queues of at most 8 entries each. Rests on 13_host_port_and_mailboxes.md. -/
def Obligations.QueuesHoldAtMostEightEntries : Prop :=
  ∀ s t : State, QueuesBounded s → step s = .next t → QueuesBounded t

/-- The state after reset meets the invariants, in Watch, with no fault and every session at Monitor. Rests on 03_states_clocks_resets.md,
04_cell_ladder.md, 12_temperature_and_faults.md, 13_host_port_and_mailboxes.md. -/
def Obligations.ResetMeetsTheInvariants : Prop :=
  StoresWf State.reset ∧ GatesApart State.reset ∧ QueuesBounded State.reset ∧ State.reset.pending = []
  ∧ State.reset.clk.pstate = .watch ∧ State.reset.flt.fstat = 0 ∧ (∀ mb, (mail State.reset mb).level = .monitor)
  ∧ (∀ mb, (mail State.reset mb).resetSeen = true) ∧ State.reset.host.irqEn = 0xE

/-- Windows discard what they cannot take, and no response is lost (R303). -/
def Obligations.NoResponseIsLost : Prop :=
  (∀ s : State, portAnswers s = true → s.host.mail.length = 4 →
    (∀ bytes : List Byte, (bytes.length ≠ 256 ∨ hostReady s = false) →
      (∃ t, exec (.reqwinPush bytes) s = .next t ∧ t = { s with host := t.host } ∧ (mail t .host).reqQ = (mail s .host).reqQ
        ∧ (mail t .host).winErr = true)
      ∧ ∃ t, exec (.registerWrite 0x20 bytes) s = .next t ∧ (mail t .host).reqQ = (mail s .host).reqQ ∧ (mail t .host).winErr = true)
    ∧ ∀ bytes : List Byte, bytes.length = 256 → hostReady s = true → s.clk.inReset = none → 8 ≤ (mail s .host).reqQ.length →
      ∃ t, exec (.reqwinPush bytes) s = .next t ∧ (mail t .host).reqQ = (mail s .host).reqQ ∧ (mail t .host).reqOvf = true
        ∧ t.cnt.counters = s.cnt.counters.modify 69 (· + 1))
  ∧ (∀ (req : Req) (op : Nat) (status : Byte) (f : List Byte) (s : State), s.host.mail.length = 4 →
    (answer req op status f s) = { s with host := (answer req op status f s).host, cnt := (answer req op status f s).cnt, free := s.free + 1 }
    ∧ (Room req.mb s → Replied req op status f s (answer req op status f s))
    ∧ (¬Room req.mb s → (mail (answer req op status f s) req.mb).rspQ = (mail s req.mb).rspQ
        ∧ (mail (answer req op status f s) req.mb).held = (mail s req.mb).held ++ [response req op true status f])
    ∧ ∀ mb, mb ≠ req.mb → mail (answer req op status f s) mb = mail s mb)
  ∧ (∀ s : State, processorRuns s = true → s.host.mail.length = 4 →
    exec .requestPop s = .next s ∨ ∃ mb, Room mb s ∧ exec .requestPop s = .next (drainLinks (popRequest mb s)))
  ∧ (∀ (mb : Mailbox) (e : Entry) (es : List Entry) (s : State), (mb = .host ∨ mb = .twb) → s.host.mail.length = 4 → (mail s mb).held = e :: es →
    (mail s mb).rspQ.length < 8 →
    ∃ t, exec (.responsePush mb) s = .next t ∧ (mail t mb).rspQ = (mail s mb).rspQ ++ [e] ∧ (mail t mb).held = es)

/-- A member answers the Wellhead's commands NOT_LEADER with the Wellhead it obeyed (R314). -/
def Obligations.AMemberRefusesWellheadCommands : Prop :=
  ∀ (c : Instr) (req : Req) (op : Nat) (payload : List Byte) (r : Rules) (s : State), c.wf = true →
    requestOf c = some (req, op, payload) → rulesOf s c = some r → (0x0701 ≤ op ∧ op ≤ 0x0708 ∨ op = 0x0C03) →
    (s.rack.wellhead = false → LevelOk req r.least s → tagInUse req s = false → (s.flt.safe = true → r.least = .monitor) →
        s.clk.pstate ≠ .watch →
        exec c s = .next (answer req op 0x40 [if s.rack.everObeyed then BitVec.ofNat 8 s.rack.leader else 0x00] s))
    ∧ (s.rack.wellhead = true → firstFailure req r s ≠ some 0x40)

/-- CFG_READ answers the longest run of requested IDs that fits, in request order (R405). -/
def Obligations.CfgReadTakesIdsInOrder : Prop :=
  ∀ (req : Req) (source : Byte) (ids : List (BitVec 16)) (s : State), Serves req (.atLevel .monitor) s →
    1 ≤ ids.length → ids.length ≤ 120 → source.toNat ≤ 1 → (∀ i ∈ ids, (paramSpec i.toNat).isSome) →
    let records := fun (i : BitVec 16) =>
      if source = 0 then recordBytes i.toNat (paramIn s.cfg.params i.toNat)
      else ((((mail s req.mb).staged.find? (·.id == i.toNat)).map fun r => recordBytes i.toNat r.vals).getD [])
    ∃ n, n ≤ ids.length
      ∧ exec (.cfgRead req source ids) s = .next (answer req 0x0204 0x00 (leBytes 1 n ++ (ids.take n).flatMap records) s)
      ∧ 3 + ((ids.take n).flatMap records).length ≤ 244
      ∧ ∀ i, ids[n]? = some i → 244 < 3 + ((ids.take n).flatMap records).length + (records i).length

/-- The processor runs, for a request entry, exactly the command that its opcode and payload spell. Rests on 13_host_port_and_mailboxes.md,
14_command_reference.md. -/
def Obligations.AnEntryRunsTheCommandItSpells : Prop :=
  ∀ (c : Instr) (req : Req) (op : Nat) (payload : List Byte) (s : State), c.wf = true → requestOf c = some (req, op, payload) →
    s.cfg.commitBusy = false →
    ∃ t, exec c (traceMark 1 0 op 0 s) = .next t ∧ runOpcode req op payload s = traceMark 2 0 op 0 t

/-- A request that fails a check is answered its code and executes nothing. Rests on 13_host_port_and_mailboxes.md, 14_command_reference.md. -/
def Obligations.AFailedCheckExecutesNothing : Prop :=
  ∀ (c : Instr) (req : Req) (op : Nat) (payload : List Byte) (r : Rules) (code : Byte) (s : State), c.wf = true →
    requestOf c = some (req, op, payload) → rulesOf s c = some r → firstFailure req r s = some code → s.cfg.commitBusy = false →
    ∃ t, exec c s = .next t ∧ t = { s with host := t.host, cnt := t.cnt, free := t.free, flt := t.flt, nv := t.nv }
      ∧ (code ≠ 0x30 → code ≠ 0x31 → t.flt = s.flt ∧ t.nv = s.nv)
      ∧ ((code = 0x30 ∨ code = 0x31) → t.flt.fstat.getLsbD 13 = true ∧ t.nv.regA = s.nv.regA ∧ t.nv.regB = s.nv.regB
          ∧ t.nv.fileStaged = s.nv.fileStaged)
      ∧ (code = 0x20 → s.host.mail.length = 4 → (mail t req.mb).refusal = some (req, BitVec.ofNat 16 op, s.clk.now)
          ∧ (mail t req.mb).rspQ = (mail s req.mb).rspQ)
      ∧ (code ≠ 0x20 → Room req.mb s → ∃ f, Replied req op code f s t)

/-- The host port registers, and DOOR with its SYNC and DROP. Rests on 13_host_port_and_mailboxes.md. -/
def Obligations.HostRegistersAndDoor : Prop :=
  (∀ s : State, portAnswers s = true → s.host.mail.length = 4 →
     (∃ t, exec (.hstatRead 0x04 4) s = .next t ∧ t.host.hsdo = bvBytes 4 (hstatOf .host s)
       ∧ (mail t .host).resetSeen = false ∧ (mail t .host).readyChg = false ∧ (mail t .host).reqOvf = false ∧ (mail t .host).winErr = false
       ∧ (mail t .host).reqQ = (mail s .host).reqQ ∧ (mail t .host).rspQ = (mail s .host).rspQ ∧ t.flt = s.flt)
     ∧ (∀ (addr : BitVec 7) (num : Nat), addr ≠ 0x40 → ∃ t, exec (.hstatRead addr num) s = .next t ∧ t = { s with host := t.host }
       ∧ t.host.hsdo = ((List.range num).map fun i => if addr.toNat + i < 0x10 then
           (bvBytes 4 (hidWord s) ++ bvBytes 4 (hstatOf .host s) ++ bvBytes 4 (fstatWord s) ++ leBytes 4 s.host.irqEn.toNat).getD (addr.toNat + i) 0 else 0)
       ∧ ((8 ≤ addr.toNat ∨ addr.toNat + num ≤ 4) → t.host.mail = s.host.mail) ∧ ∀ mb, mb ≠ .host → mail t mb = mail s mb)
     ∧ (∀ value : BitVec 32, ∃ t, exec (.fstatWrite value) s = .next t ∧ t.host = s.host ∧ t.lad = s.lad
       ∧ (∀ b, 3 ≤ b → b ≤ 29 → t.flt.fstat.getLsbD b = (s.flt.fstat.getLsbD b && (!value.getLsbD b || stillActive s b)))
       ∧ ∀ b, (b < 3 ∨ b = 30 ∨ b = 31) → t.flt.fstat.getLsbD b = s.flt.fstat.getLsbD b)
     ∧ (∀ v : Byte, ∃ t, exec (.registerWrite 0x0C [v]) s = .next t ∧ t.host.irqEn = v.setWidth 4 ∧ t.flt.fstat = s.flt.fstat
       ∧ t.host.mail = s.host.mail ∧ t.lad = s.lad)
     ∧ (∀ v : Byte, ∃ t, exec (.registerWrite 0x10 [v]) s = .next t ∧ t.host.irqEn = s.host.irqEn
       ∧ (v.getLsbD 0 = true → (mail t .host).reqQ = [] ∧ (mail t .host).rspQ = [] ∧ (mail t .host).resetSeen = true)
       ∧ ((v.getLsbD 0 = true ∨ v.getLsbD 1 = true) → (mail t .host).level = .monitor)
       ∧ (v.getLsbD 0 = false → v.getLsbD 1 = false → t.host.mail = s.host.mail))
     ∧ (∀ (addr : BitVec 7) (data : List Byte), 0x14 ≤ addr.toNat → addr ≠ 0x20 →
       ∃ t, exec (.registerWrite addr data) s = .next t ∧ t.host.mail = s.host.mail ∧ t.host.irqEn = s.host.irqEn ∧ t.flt.fstat = s.flt.fstat))
  ∧ (∀ s : State, portAnswers s = true → s.host.mail.length = 4 →
       (∃ t, exec .doorSync s = .next t ∧ (mail t .host).reqQ = [] ∧ (mail t .host).rspQ = [] ∧ (mail t .host).held = []
         ∧ (mail t .host).level = .monitor ∧ (mail t .host).resetSeen = true ∧ (mail t .host).staged = []
         ∧ (∀ r ∈ s.host.running, r.req.mb = .host → r.req.tag ∈ (mail t .host).dropRun)
         ∧ ∀ mb, mb ≠ .host → mail t mb = mail s mb)
       ∧ (∃ t, exec .doorDrop s = .next t ∧ (mail t .host).level = .monitor ∧ (mail t .host).staged = [] ∧ (mail t .host).reqQ = (mail s .host).reqQ
         ∧ (mail t .host).rspQ = (mail s .host).rspQ ∧ ∀ mb, mb ≠ .host → mail t mb = mail s mb))

/-- REQWIN pushes a 256-byte entry; RSPWIN pops one only when at least 256 bytes are read. Rests on 13_host_port_and_mailboxes.md. -/
def Obligations.WindowsPushAndPopWholeEntries : Prop :=
  ∀ s : State, portAnswers s = true → s.host.mail.length = 4 →
    (∀ bytes : List Byte, bytes.length = 256 → hostReady s = true → s.clk.inReset = none → (mail s .host).reqQ.length < 8 →
      ∃ t, exec (.reqwinPush bytes) s = .next t ∧ (mail t .host).reqQ = (mail s .host).reqQ ++ [bytes]
        ∧ (mail t .host).winErr = (mail s .host).winErr)
    ∧ (∀ (num : Nat) (e : Entry) (es : List Entry), (mail s .host).rspQ = e :: es →
      ∃ t, exec (.rspwinPop num) s = .next t ∧ (mail t .host).rspQ = (if 256 ≤ num then es else e :: es)
        ∧ t.host.hsdo = (List.range num).map fun i => (entryBytes e).getD (i % 256) 0)
    ∧ (∀ num : Nat, (mail s .host).rspQ = [] →
      ∃ t, exec (.rspwinPop num) s = .next t ∧ (mail t .host).rspQ = [] ∧ t.host.hsdo = List.replicate num 0)
    ∧ (∃ t, exec .hcsNTimeout s = .next t ∧ (mail t .host).winErr = true ∧ (mail t .host).reqQ = (mail s .host).reqQ
        ∧ (mail t .host).rspQ = (mail s .host).rspQ)

/-- The two-wire windows and the asynchronous receiver make requests and give responses. Rests on 13_host_port_and_mailboxes.md, 17_local_buses.md.
-/
def Obligations.TwoWireTargetAndUart : Prop :=
  ∀ s : State, s.host.mail.length = 4 →
    (busBAnswers s = true →
      (∀ bytes : List Byte, bytes.length = 256 → hostReady s = true → s.clk.inReset = none → (mail s .twb).reqQ.length < 8 →
        ∃ t, exec (.twbWindowWrite (0 :: bytes)) s = .next t ∧ (mail t .twb).reqQ = (mail s .twb).reqQ ++ [bytes] ∧ t.host.twbPtr = 0)
      ∧ (∀ (p : Byte) (bytes : List Byte), bytes ≠ [] → (p ≠ 0 ∨ bytes.length ≠ 256) →
        ∃ t, exec (.twbWindowWrite (p :: bytes)) s = .next t ∧ (mail t .twb).winErr = true ∧ (mail t .twb).reqQ = (mail s .twb).reqQ
          ∧ t.host.twbPtr = p + BitVec.ofNat 8 bytes.length)
      ∧ (∀ p : Byte, ∃ t, exec (.twbWindowWrite [p]) s = .next t ∧ t.host.twbPtr = p ∧ t.host.mail = s.host.mail)
      ∧ (∀ (num : Nat) (e : Entry) (es : List Entry), (mail s .twb).rspQ = e :: es →
        ∃ t, exec (.twbWindowRead num) s = .next t
          ∧ t.host.twbOut = ((List.range num).map fun i => (entryBytes e).getD ((s.host.twbPtr.toNat + i) % 256) 0)
          ∧ t.host.twbPtr = s.host.twbPtr + BitVec.ofNat 8 num
          ∧ (mail t .twb).rspQ = (if s.host.twbPtr = 0 ∧ 256 ≤ num then es else e :: es))
      ∧ (∀ num : Nat, num ≤ 4 → ∃ t, exec (.twbStatusRead num) s = .next t ∧ t.host.twbOut = (bvBytes 4 (hstatOf .twb s)).take num
          ∧ (mail t .twb).resetSeen = false ∧ (mail t .twb).readyChg = false ∧ (mail t .twb).reqOvf = false ∧ (mail t .twb).winErr = false
          ∧ (mail t .twb).reqQ = (mail s .twb).reqQ ∧ (mail t .twb).rspQ = (mail s .twb).rspQ))
    ∧ (uartRuns s = true →
      (∀ byte : Byte, s.host.uartSkip = false → s.host.uartBuf.length < 255 →
        ∃ t, exec (.uartByteReceived byte true) s = .next t ∧ t.host.uartBuf = s.host.uartBuf ++ [byte] ∧ t.host.mail = s.host.mail)
      ∧ (∀ byte : Byte, s.host.uartSkip = false → s.host.uartBuf.length = 255 → s.clk.inReset = none → (mail s .uart).reqQ.length < 8 →
        ∃ t, exec (.uartByteReceived byte true) s = .next t ∧ t.host.uartBuf = []
          ∧ (mail t .uart).reqQ = (mail s .uart).reqQ ++ [s.host.uartBuf ++ [byte]])
      ∧ (∀ byte : Byte, ∃ t, exec (.uartByteReceived byte false) s = .next t ∧ t.host.uartBuf = [] ∧ t.host.mail = s.host.mail
          ∧ t.cnt.counters = s.cnt.counters.modify 82 (· + 1))
      ∧ ∃ t, exec .uartIdle s = .next t ∧ t.host.uartBuf = [] ∧ t.host.uartSkip = false ∧ t.host.mail = s.host.mail)

/-- The processor takes requests in turn, and refusals, final responses and held gates come when they are due. Rests on
13_host_port_and_mailboxes.md. -/
def Obligations.RequestsAreServedInTurnAndAnswered : Prop :=
  (∀ (s : State), processorRuns s = true → s.host.mail.length = 4 →
     (∀ (mb : Mailbox) (op : Nat) (row : OpRow) (tag : Byte) (level : Access) (payload : List Byte) (rest : List (List Byte)),
       (serveOrderOf s.host.turn).find? (servable s) = some mb →
       (mail s mb).reqQ = requestBytes op tag level payload :: rest → op < 65536 → opRow op s = some row → row.admits payload.length = true →
       Access.code level ≤ sessionCode s mb → Access.code row.least ≤ Access.code level →
       ∃ u, exec .requestPop s = .next (drainLinks (runOpcode ⟨mb, tag, level⟩ op payload u))
         ∧ (mail u mb).reqQ = rest ∧ u.host.turn = Mailbox.idx mb + 1
         ∧ u.cnt.counters = s.cnt.counters.modify (64 + Mailbox.idx mb) (· + 1) ∧ u.lad = s.lad ∧ u.flt = s.flt ∧ u.nv = s.nv ∧ u.clk = s.clk)
     ∧ ((serveOrderOf s.host.turn).find? (servable s) = none → exec .requestPop s = .next s))
  ∧ (∀ (s : State), s.host.mail.length = 4 →
       (∀ (req : Req) (op : BitVec 16) (at_ : Nat) (why : RefusalCause), (req.mb = .host ∨ req.mb = .twb) →
         (mail s req.mb).refusal = some (req, op, at_) → (mail s req.mb).cause = some why →
         Room req.mb s → (mail s req.mb).dropRun = [] → s.dbg.haltedCp = false →
         ∃ t e, exec (.refusalResponse req.mb) s = .next t ∧ (mail t req.mb).refusal = none ∧ (mail t req.mb).busy = false
           ∧ (mail t req.mb).rspQ = (mail s req.mb).rspQ ++ [e] ∧ e.opcode = op ∧ e.tag = req.tag ∧ e.payload = [0x20, 0]
           ∧ at_ + us 200 ≤ t.clk.now
           ∧ t.key.log = ((op, BitVec.ofNat 8 (Mailbox.idx req.mb), why) :: s.key.log).take 64 ∧ t.flt.fstat.getLsbD 4 = true)
       ∧ (∀ r : Running, (r.req.mb = .host ∨ r.req.mb = .twb) → runningOf r.req.mb r.req.tag s = some r → r.done = true →
         Room r.req.mb s → (mail s r.req.mb).dropRun = [] → s.dbg.haltedCp = false →
         ∃ t, exec (.finalResponse r.req.mb r.req.tag) s = .next t ∧ Replied r.req r.opcode.toNat r.status r.reply s t
           ∧ ∀ q ∈ t.host.running, q.req ≠ r.req)
       ∧ (∀ r : Running, (r.req.mb = .host ∨ r.req.mb = .twb) → runningOf r.req.mb r.req.tag s = some r → r.done = false → r.opcode = 0x070A →
         Room r.req.mb s → (mail s r.req.mb).dropRun = [] → s.dbg.haltedCp = false →
         ∃ t, exec (.finalResponse r.req.mb r.req.tag) s = .next t ∧ Replied r.req 0x070A 0x02 [] s t
           ∧ r.began + ms (finalMs (leNat (r.args.take 2)) + 10) ≤ t.clk.now ∧ ∀ q ∈ t.ring.relays, q.1 ≠ r.req)
       ∧ (∀ r : Running, s.host.running = [r] → r.opcode = 0x0107 → r.done = false → s.busA.held = false →
         ∃ t, exec .holdRelease s = .next t ∧ t.host.gates = s.host.gates.set ((r.args.getD 0 0).toNat - 1) (r.args.getD 1 0)
           ∧ ∀ q ∈ t.host.running, q.done = true ∧ q.status = 0x00))

/-- SYS_INFO, TEMP_READ, FAULT_READ and CFG_STATE answer the fields of their tables. Rests on 12_temperature_and_faults.md, 14_command_reference.md.
-/
def Obligations.SystemReadsAnswer : Prop :=
  ∀ (req : Req) (s : State), Serves req (.atLevel .monitor) s →
    exec (.sysInfo req) s = .next (answer req 0x0101 0x00 (bvBytes 4 (hidWord s) ++ leBytes 8 (s.parN 0x0200) ++ bvBytes 4 s.cfg.gen
        ++ bvBytes 4 s.clk.opsec ++ bvBytes 4 s.clk.cycles ++ leBytes 1 s.key.life.code ++ leBytes 1 s.clk.pstate.code
        ++ leBytes 2 (notReadyBits s)) s)
    ∧ exec (.tempRead req) s = .next (answer req 0x0103 0x00 ((s.flt.ctrl.zip s.flt.ctrlOut).flatMap sensorBytes
        ++ (s.flt.power.zip s.flt.powerOut).flatMap sensorBytes ++ leInt 2 ((highest (ctrlValid s)).getD 0)
        ++ leInt 2 ((highest (powerValid s)).getD 0)) s)
    ∧ exec (.faultRead req) s = .next (answer req 0x0104 0x00 (bvBytes 4 (fstatWord s) ++ leBytes 4 (severeMask s)
        ++ leBytes 1 (s.flt.fatalSrc.getD 0xFF)) s)
    ∧ exec (.cfgState req) s = .next (answer req 0x0205 0x00 (bvBytes 4 s.cfg.gen ++ digestOf s.cfg.params
        ++ leBytes 1 (mail s req.mb).staged.length ++ leBytes 1 (bit s.cfg.hasPending 0) ++ leBytes 8 ((s.cfg.order.map (·.2)).getD 0)) s)

/-- SYS_RESET, FAULT_INJECT, BLOCK_GATE and FAULT_CLEAR act as their rows say. Rests on 12_temperature_and_faults.md, 14_command_reference.md. -/
def Obligations.SystemCommandsAct : Prop :=
  (∀ (req : Req) (s : State), Open req (.atLevel .service) s →
     (∃ t, exec (.sysReset req 0x01) s = .next t ∧ t.host.restart = some (false, s.clk.now + ms 1) ∧ Replied req 0x0102 0x00 [] s t)
     ∧ (∀ kind, kind ≠ 0x01 → exec (.sysReset req kind) s = .next (answer req 0x0102 0x11 [] s))
     ∧ (∀ target kind value duration, s.key.life = .factory → injectTarget kind.toNat target.toNat = true → kind ≠ 1 →
         target ≠ 0x0220 →
         ∃ t, exec (.faultInject req target kind value duration) s = .next t
           ∧ t.flt.injections = s.flt.injections
               ++ [⟨s.flt.nextInject, target, kind, value, if duration = 0 then none else some (s.clk.now + ms duration.toNat)⟩]
           ∧ Replied req 0x0106 0x00 [s.flt.nextInject] s t)
     ∧ (∀ target value duration, s.key.life = .factory → 3 ≤ target.toNat → target.toNat ≤ 29 →
         ∃ t, exec (.faultInject req target 1 value duration) s = .next t ∧ t.flt.fstat.getLsbD target.toNat = true)
     ∧ (∀ value duration, s.key.life = .factory → value ≠ 0 → (∀ i ∈ s.flt.injections, i.target ≠ 0x0220) →
         ∃ t, exec (.faultInject req 0x0220 3 value duration) s = .next t ∧ t.flt.fstat.getLsbD 15 = true)
     ∧ (∀ block action, 1 ≤ block.toNat → block.toNat ≤ 4 → action.toNat ≤ 2 → carries block req.mb = false →
         ¬(block = 2 ∧ action ≠ 0 ∧ s.busA.held = true) →
         ∃ t, exec (.blockGate req block action) s = .next t ∧ t.host.gates = s.host.gates.set (block.toNat - 1) action
           ∧ (block = 1 → t.eng.gated = (action != 0)) ∧ Replied req 0x0107 0x00 [action] s t)
     ∧ (∀ action, action ≠ 0 → action.toNat ≤ 2 → s.busA.held = true →
         ∃ t, exec (.blockGate req 2 action) s = .next t ∧ t.host.gates = s.host.gates ∧ Accepted req 0x0107 0x03 s t))
  ∧ (∀ (req : Req) (mask : BitVec 32) (s : State), Open req (.atLevel .service) s → (mask.getLsbD 31 = true → causePersists s = false) →
       ∃ t, exec (.faultClear req mask) s = .next t
         ∧ (∀ b, 3 ≤ b → b ≤ 29 → t.flt.fstat.getLsbD b = (s.flt.fstat.getLsbD b && (!mask.getLsbD b || stillActive s b)))
         ∧ t.flt.fstat.getLsbD 31 = (s.flt.fstat.getLsbD 31 && !mask.getLsbD 31)
         ∧ (mask.getLsbD 31 = true → t.flt.fatalSrc = none ∧ t.lad.oos = false)
         ∧ t.lad.severeHold = (s.lad.severeHold && !mask.getLsbD 24)
         ∧ t.flt.fuseHold = s.flt.fuseHold
         ∧ t.lad.levels = s.lad.levels ∧ t.nv = s.nv ∧ t.cfg = s.cfg)

/-- CFG_STAGE, CFG_COMMIT and CFG_DISCARD: what is staged, written whole, or thrown away. Rests on 14_command_reference.md,
15_storage_and_recorder.md. -/
def Obligations.StagedSetsAreKeptCommittedOrDiscarded : Prop :=
  (∀ (req : Req) (records : List Byte) (s : State), Open req (.atLevel .service) s → 5 ≤ records.length → records.length ≤ 244 →
     let r := stageRecords s.cfg.params (fittedNow s) (filesNow s) false 128 61 records (mail s req.mb).staged 0
     ∃ t, exec (.cfgStage req records) s = .next t ∧ (mail t req.mb).staged = r.1 ∧ t.cfg = s.cfg ∧ t.nv = s.nv
       ∧ (r.2.2 = none → Replied req 0x0201 0x00 (leBytes 1 r.2.1 ++ [0, 0]) s t)
       ∧ (r.2.2 = some .badField → Replied req 0x0201 0x11 (leBytes 1 r.2.1 ++ leBytes 2 (r.2.1 + 1)) s t)
       ∧ (r.2.2 = some .badState → Replied req 0x0201 0x12 (leBytes 1 r.2.1 ++ leBytes 2 (r.2.1 + 1)) s t))
  ∧ (∀ (req : Req) (s : State),
       (Open req (.atLevel .service) s →
         ∃ t, exec (.cfgDiscard req) s = .next t ∧ (mail t req.mb).staged = [] ∧ t.cfg = s.cfg
           ∧ Replied req 0x0203 0x00 (leBytes 1 (mail s req.mb).staged.length) s t)
       ∧ ∀ (expect : BitVec 32), Open req ⟨.service, false, false, true⟩ s →
           ((mail s req.mb).staged = [] ∨ (expect ≠ 0 ∧ expect ≠ s.cfg.gen)) →
           ∃ t, exec (.cfgCommit req expect) s = .next t ∧ t.cfg.params = s.cfg.params ∧ t.cfg.gen = s.cfg.gen
             ∧ t.cfg.effective = s.cfg.effective ∧ t.nv = s.nv ∧ t.lad = s.lad)
  ∧ (∀ (req : Req) (expect : BitVec 32) (s : State), Open req ⟨.service, false, false, true⟩ s →
       let st := (mail s req.mb).staged
       let set := overlay s.cfg.params st
       st ≠ [] → (expect = 0 ∨ expect = s.cfg.gen) → hasRoom s (itemBytes s { JItems.reset with params := some set }) = true →
       firstBad s.cfg.params st (fittedNow s) (filesNow s) = none → modelRefusal s st = none →
       (isAdmitted s = true → ∀ p ∈ st, notAdmittedId p.id = false) →
       ∃ t, exec (.cfgCommit req expect) s = .next t ∧ t.cfg.params = set ∧ t.cfg.gen = s.cfg.gen + 1 ∧ (mail t req.mb).staged = []
         ∧ t.lad.guard = guardFrom set ∧ t.lad.levels = s.lad.levels
         ∧ Replied req 0x0202 0x00 (bvBytes 4 (s.cfg.gen + 1) ++ digestOf set) s t)

/-- LADDER_PARK, SHELF_BYPASS, LEVEL_CLEAR and LADDER_CHECK act as their rows say. Rests on 04_cell_ladder.md, 14_command_reference.md. -/
def Obligations.LadderCommandsAct : Prop :=
  ∀ (req : Req) (s : State),
    (Open req (.atLevel .operator) s → ∀ mask : BitVec 16, s.clk.pstate = .run →
      ∃ t, exec (.ladderPark req mask) s = .next t ∧ t.lad.parkMask = s.lad.parkMask ||| mask ∧ t.lad.parkTag = s.lad.parkTag ++ [req]
        ∧ t.lad.levels = s.lad.levels)
    ∧ (Open req (.atLevel .operator) s → ∀ mask : BitVec 16, s.clk.pstate ≠ .run → s.lad.levels.length = 16 →
      ∃ t, exec (.ladderPark req mask) s = .next t ∧ t.lad.parkMask = 0 ∧ t.lad.parkTag = []
        ∧ ∀ k, k < 16 → mask.getLsbD k = true → present s k = true → (lvl s k).st ≠ .retired → (lvl t k).st = .parked)
    ∧ (Open req (.atLevel .operator) s → checkRuns s = false → s.lad.levels.length = 16 →
      (stuckLevels s = [] ∨ packOpen s = true) →
      ∃ t, exec (.shelfBypass req 1) s = .next t ∧ t.lad.adm = .out
        ∧ ∀ k, k < 16 → present s k = true → (lvl s k).st ≠ .retired → (lvl t k).st = .parked ∧
            ((lvl s k).st ≠ .parked → (lvl t k).insGate = false ∧ (lvl t k).bypGate = (lvl s k).bsOk))
    ∧ (Open req (.atLevel .operator) s → checkRuns s = false → outOrRetired s = true → absRat (reportedA s) < 2 →
      ∃ t, exec (.shelfBypass req 0) s = .next t ∧ t.lad = { s.lad with sby := false } ∧ Replied req 0x0303 0x00 [0] s t)
    ∧ (Open req ⟨.service, false, false, true⟩ s → ∀ mask : BitVec 16, isAdmitted s = false → checkRuns s = false → s.lad.levels.length = 16 →
      ∃ t, exec (.levelClear req mask) s = .next t
        ∧ ∀ k, k < 16 → lvl t k = if mask.getLsbD k && present s k && (lvl s k).st == .retired then { lvl s k with recheck := true } else lvl s k)
    ∧ (Open req (.atLevel .operator) s → checkRuns s = false → s.lad.sby = true → isAdmitted s = false → toCheck s ≠ [] →
      ∃ t, exec (.ladderCheck req) s = .next t ∧ t.lad = { s.lad with checkReq := some req, checkLeft := toCheck s }
        ∧ Accepted req 0x0305 0x01 s t)

/-- LADDER_STATUS, MEAS_READ, NTC_READ, SENSE_STATUS, SWITCH_BINS, SENSE_CLEAR, PACK_INFO, CELL_ACCOUNT and PACK_AUTH. Rests on 06_measurement.md,
07_charge_and_capacity.md, 14_command_reference.md. -/
def Obligations.MeasurementAndAccountCommandsAnswer : Prop :=
  (∀ (req : Req) (s : State),
     (Serves req (.atLevel .monitor) s →
       exec (.ladderStatus req) s = .next (answer req 0x0301 0x00 ((List.range 16).flatMap (fun k => leBytes 2 (levelWord s k))
           ++ leBytes 2 (modWord s) ++ leBytes 2 (reportNat 16 (vLow s * 100)) ++ leBytes 2 (reportNat 16 (vHigh s * 100))
           ++ leBytes 2 (reportNat 16 (s.mod.vcmd * 100)) ++ leBytes 1 (retiredCount s)) s)
       ∧ exec (.measRead req) s = .next (answer req 0x0401 0x00 ((List.range 16).flatMap (fun k =>
           leBytes 4 (if present s k then sampleWord (s.meas.words.getD k CellWord.reset) k else 0)) ++ leBytes 4 (currentWord s)
           ++ leBytes 2 (reportNat 16 (s.meas.stack * 100)) ++ leBytes 2 (reportNat 16 (s.meas.ladderOut * 100)) ++ leBytes 8 s.meas.cellAt) s)
       ∧ exec (.ntcRead req) s = .next (answer req 0x0402 0x00 ((List.range 24).flatMap (ntcBytes s)) s)
       ∧ exec (.senseStatus req) s = .next (answer req 0x0403 0x00 (leBytes 4 (senseWord s) ++ (List.range 16).flatMap fun k =>
           leBytes 2 (if present s k then reportNat 16 ((stepRec s k).rStep * 1000) else 0)) s)
       ∧ ∀ level : Byte, exec (.switchBins req level) s = .next (
           if 1 ≤ level.toNat ∧ level.toNat ≤ 16 ∧ present s (level.toNat - 1) = true then
             answer req 0x0404 0x00 ((s.meas.binIn.getD (level.toNat - 1) []).flatMap (binBytes s)
               ++ (s.meas.binBy.getD (level.toNat - 1) []).flatMap (binBytes s)) s
           else answer req 0x0404 0x11 [] s))
     ∧ (Open req ⟨.service, false, false, true⟩ s → ∀ mask : BitVec 32,
       ∃ t, exec (.senseClear req mask) s = .next t
         ∧ t.meas.tapOpen = s.meas.tapOpen &&& ~~~(mask.setWidth 17) ∧ t.meas.tapRetest = s.meas.tapRetest ||| (mask.setWidth 17 &&& s.meas.tapOpen)
         ∧ t.meas.shuntFail = (s.meas.shuntFail && !mask.getLsbD 29)))
  ∧ (∀ (req : Req) (s : State),
       (Open req (.atLevel .monitor) s →
         exec (.packInfo req) s = .next (answer req 0x0502 0x00 (bvBytes 8 s.chg.packId ++ leBytes 8 s.chg.bindTime ++ leBytes 1 s.chg.token.code
             ++ leBytes 8 s.chg.lastAuth) s)
         ∧ (∀ first : Byte, 1 ≤ first.toNat → first.toNat ≤ 16 → present s (first.toNat - 1) = true →
             ∃ t, exec (.cellAccount req first 1) s = .next t ∧ (mail t req.mb).latch = some (takeLatch s) ∧ t.chg = s.chg
               ∧ Replied req 0x0501 0x00 (leBytes 8 s.clk.ring
                   ++ ((((List.range 16).filter fun k => present s k && decide (first.toNat - 1 ≤ k)).map (accountRecord s)).take 2).flatten) s t)
         ∧ (∀ (first : Byte) (l : AccLatch), 1 ≤ first.toNat → first.toNat ≤ 16 → present s (first.toNat - 1) = true →
             (mail s req.mb).latch = some l →
             exec (.cellAccount req first 0) s = .next (answer req 0x0501 0x00
               (leBytes 8 l.time ++ (((l.records.drop (first.toNat - 1)).filter (· ≠ [])).take 2).flatten) s))
         ∧ (∀ first : Byte, 1 ≤ first.toNat → first.toNat ≤ 16 → present s (first.toNat - 1) = true → (mail s req.mb).latch = none →
             exec (.cellAccount req first 0) s = .next (answer req 0x0501 0x12 [] s))
         ∧ (∀ first latch : Byte, (first = 0 ∨ 16 < first.toNat ∨ present s (first.toNat - 1) = false ∨ 1 < latch.toNat) →
             exec (.cellAccount req first latch) s = .next (answer req 0x0501 0x11 [] s)))
       ∧ (Open req (.atLevel .operator) s →
         (s.chg.attempt = false → ∃ t, exec (.packAuth req) s = .next t ∧ t.chg.attempt = true ∧ t.busA.held = true ∧ Accepted req 0x0503 0x01 s t)
         ∧ (s.chg.attempt = true → exec (.packAuth req) s = .next (answer req 0x0503 0x02 [] s))))

/-- ENGINE_OUTPUT, SPECTRUM and MODEL_INFO. Rests on 08_model_engine.md, 14_command_reference.md. -/
def Obligations.EngineCommandsAnswer : Prop :=
  ∀ (req : Req) (s : State),
    (Open req ⟨.monitor, true, false, false⟩ s →
      (∀ first num : Byte, exec (.engineOutput req first num) s = .next (
          if 1 ≤ first.toNat ∧ first.toNat ≤ 16 ∧ present s (first.toNat - 1) = true ∧ 1 ≤ num.toNat ∧ num.toNat ≤ 7 then
            answer req 0x0601 0x00 ((((presentLevels s).filter (first.toNat - 1 ≤ ·)).take num.toNat).flatMap (outputRecord s)) s
          else answer req 0x0601 0x11 [] s))
      ∧ (∀ level part : Byte, exec (.spectrum req level part) s = .next (
          if 1 ≤ level.toNat ∧ level.toNat ≤ 16 ∧ present s (level.toNat - 1) = true ∧ part.toNat ≤ 1 then
            answer req 0x0602 0x00 (spectrumPart s (level.toNat - 1) part.toNat) s
          else answer req 0x0602 0x11 [] s)))
    ∧ (Open req (.atLevel .monitor) s →
      (∀ slot : Byte, slot.toNat ≤ 1 →
        ∃ t, exec (.modelInfo req slot) s = .next t ∧ t.nv = s.nv ∧ t.eng = s.eng
          ∧ (mail t req.mb).rspQ = (mail s req.mb).rspQ ++ [response req 0x0604 false 0x01 []]
          ∧ ⟨req, 0x0604, [], 0x00, readBytes 0 64 (if slot = 0 then s.nv.fileActive else s.nv.fileStaged)
              ++ leBytes 1 (fileValid s (slot == 1)), true, s.clk.now⟩ ∈ t.host.running)
      ∧ ∀ slot : Byte, 1 < slot.toNat → exec (.modelInfo req slot) s = .next (answer req 0x0604 0x11 [] s))

/-- MODEL_WRITE stores its bytes at its offset in the staged file and changes no other byte. Rests on 08_model_engine.md, 14_command_reference.md,
15_storage_and_recorder.md. -/
def Obligations.ModelWriteStoresExactlyItsData : Prop :=
  ∀ (req : Req) (offset : BitVec 32) (data : List Byte) (s : State), Open req ⟨.service, false, false, true⟩ s →
    8 ≤ data.length → data.length ≤ 232 → data.length % 8 = 0 → offset.toNat % 8 = 0 → offset.toNat + data.length ≤ 262144 →
    Memory.wf s.nv.fileStaged = true →
    ∃ t, exec (.modelWrite req offset data) s = .next t ∧ Replied req 0x0603 0x00 [] s t ∧ Memory.wf t.nv.fileStaged = true
      ∧ (∀ i, i < data.length → readByte (offset.toNat + i) t.nv.fileStaged = data.getD i 0)
      ∧ (∀ a, ¬(offset.toNat ≤ a ∧ a < offset.toNat + data.length) → readByte a t.nv.fileStaged = readByte a s.nv.fileStaged)
      ∧ t.nv.fileActive = s.nv.fileActive ∧ t.nv.slot0 = s.nv.slot0 ∧ t.nv.slot1 = s.nv.slot1 ∧ t.cfg = s.cfg

/-- RACK_STATUS, RING_STATUS, RACK_DISPATCH, RACK_BUS and HOLDUP_CLEAR. Rests on 09_rack_coordination.md, 10_relide_ring.md,
14_command_reference.md. -/
def Obligations.RackReadsAndDispatch : Prop :=
  ∀ (req : Req) (s : State),
    (Serves req ⟨.monitor, true, true, false⟩ s → exec (.rackStatus req) s = .next (answer req 0x0701 0x00 (rackFields s) s))
    ∧ (Serves req (.atLevel .monitor) s → exec (.ringStatus req) s = .next (answer req 0x0709 0x00 (leBytes 2 (ringWord s)
          ++ leBytes 4 (reportNat 32 s.ring.lka.delay) ++ leBytes 4 (reportNat 32 s.ring.lkb.delay) ++ leBytes 8 (highTime s)
          ++ bvBytes 4 (if s.rack.wellhead then s.rack.epoch else s.rack.obeyed) ++ bvBytes 4 s.ring.rejected) s))
    ∧ (Open req ⟨.operator, true, true, false⟩ s →
      (∀ (vd : BitVec 16) (tApply : BitVec 64) (limDis limCh : BitVec 16) (kind : Byte),
          vd.toNat ≤ 15000 → tApply.toNat ≤ s.clk.ring + sec 1 → kind.toNat ≤ 1 →
          ∃ t d, exec (.rackDispatch req vd tApply limDis limCh kind) s = .next t ∧ t.rack.dispatch = s.rack.dispatch ++ [d]
            ∧ d.vd = (vd.toNat : Rat) / 10 ∧ d.apply = tApply.toNat
            ∧ ∃ effect, Replied req 0x0702 0x00 (leBytes 8 effect) s t ∧ effect % 10000 = 0 ∧ tApply.toNat ≤ effect ∧ s.clk.ring < effect)
      ∧ (∀ (vbus : BitVec 16) (contactor : Byte), contactor.toNat ≤ 1 →
          ∃ t, exec (.rackBus req vbus contactor) s = .next t ∧ t.rack.contactor = (contactor == 1) ∧ Replied req 0x0703 0x00 [] s t
            ∧ ((∀ b ∈ s.rack.busAt, b + ms 1 ≤ s.clk.now) → t.rack.busMeas = some ((vbus.toNat : Rat) / 10) ∧ t.rack.busAt = some s.clk.now)
            ∧ ((∃ b ∈ s.rack.busAt, s.clk.now < b + ms 1) → t.rack.busMeas = s.rack.busMeas ∧ t.rack.rpath = s.rack.rpath))
      ∧ (s.rack.busHu = true → ∃ t, exec (.holdupClear req) s = .next t ∧ t.rack.busHu = false ∧ Replied req 0x0704 0x00 [] s t)
      ∧ (s.rack.busHu = false → exec (.holdupClear req) s = .next (answer req 0x0704 0x12 [] s)))

/-- RACK_SLEEP, RACK_STAGE, RACK_COMMIT, HANDOVER and RELAY begin their work. Rests on 09_rack_coordination.md, 10_relide_ring.md,
14_command_reference.md. -/
def Obligations.RackChangesBegin : Prop :=
  ∀ (req : Req) (s : State),
    (Open req ⟨.operator, true, true, false⟩ s → mayBeFed s = false → s.rack.busHu = false → s.rack.takeoverAt + sec 1 ≤ s.clk.now →
      s.rack.voting = false → s.rack.sleepAt = none → s.rack.staging = false → s.rack.staged = false → s.cfg.hasPending = false →
      s.ring.relaying = false →
      ∃ t, exec (.rackSleep req) s = .next t ∧ t.rack.voteNo = s.rack.voteNo + 1
        ∧ (mail t req.mb).rspQ = (mail s req.mb).rspQ ++ [response req 0x0705 false 0x01 []])
    ∧ (Open req ⟨.service, true, true, false⟩ s → ∀ records : List Byte, 5 ≤ records.length → records.length ≤ 244 →
      s.rack.staging = false → s.rack.staged = false → s.cfg.order = none → s.rack.commitReq = none →
      let r := stageRecords s.cfg.params (fittedNow s) (filesNow s) true 128 61 records [] 0
      r.2.2 = none → canWrite s = true → hasRoom s (itemBytes s { JItems.reset with pending := some (r.1, 0), order := some (0, 0) }) = true →
      ∃ t, exec (.rackStage req records) s = .next t ∧ t.cfg.pending = r.1 ∧ t.cfg.hasPending = true ∧ t.rack.stage = r.1
        ∧ t.cfg.params = s.cfg.params)
    ∧ (Open req ⟨.service, true, true, false⟩ s → ∀ digest : BitVec 64, s.rack.staged = true →
      bvBytes 8 digest = digestOf (overlay s.cfg.params s.rack.stage) → s.cfg.hasPending = true →
      ∃ t g tc, exec (.rackCommit req digest) s = .next t ∧ t.cfg.order = some (g, tc) ∧ t.rack.staged = false ∧ t.rack.commitReq = some req
        ∧ g = newestGen s + 1 ∧ s.clk.ring + ms 5 ≤ tc ∧ tc % (10000 * max 1 s.mod.frameLen) = 0)
    ∧ (Open req ⟨.service, true, true, false⟩ s → s.rack.succ ≠ [] → s.rack.handAt = none →
      ∃ t, exec (.handover req) s = .next t ∧ t.rack.handover = some req ∧ t.rack.handAt = some (s.clk.ring / 10000 + 2))
    ∧ (Open req ⟨.monitor, true, false, false⟩ s → ∀ (dst : Byte) (inner : BitVec 16) (payload : List Byte), payload.length ≤ 240 →
      dst.toNat ≠ position s → 1 ≤ dst.toNat → dst.toNat ≤ shelfCount s → inner ≠ 0x070A → ∀ tag, innerTag s dst.toNat = some tag →
      ∃ t, exec (.relay req dst 0 inner payload) s = .next t ∧ t.ring.relays = s.ring.relays ++ [(req, dst.toNat, tag)]
        ∧ Accepted req 0x070A 0x01 s t)

/-- AUX_STATUS, LAST_FAULT, RAIL_CLEAR, EFUSE_CLEAR, EFUSE_PERMIT and STEP_CONTROL. Rests on 11_aux_power.md, 14_command_reference.md. -/
def Obligations.AuxiliaryCommandsAct : Prop :=
  (∀ (req : Req) (s : State), Serves req (.atLevel .monitor) s →
     exec (.auxStatus req) s = .next (answer req 0x0801 0x00 (((List.range 4).flatMap fun x => leBytes 2 (railWord s x))
         ++ ((List.range 6).flatMap fun x => leBytes 2 (fuseWord s x)) ++ (s.aux.rails.flatMap fun r => leBytes 2 r.vout)
         ++ (s.aux.fuses.flatMap fun f => leInt 2 f.current)) s)
     ∧ (∀ (channel : Byte) (i : Nat), i < 10 → faultChannel i = channel.toNat →
         exec (.lastFault req channel) s = .next (answer req 0x0806 0x00
           (if (standingFault s i).valid then 1 :: lastFaultBytes i (standingFault s i) else List.replicate 33 0) s))
     ∧ (∀ channel : Byte, (∀ i, i < 10 → faultChannel i ≠ channel.toNat) →
         exec (.lastFault req channel) s = .next (answer req 0x0806 0x11 [] s)))
  ∧ (∀ (req : Req) (s : State), Open req (.atLevel .operator) s → s.aux.rails.length = 4 → s.aux.fuses.length = 6 →
       ((railOf s 3).st = .latchedOff → s.sup.holdup = false →
         ∃ t, exec (.railClear req 3) s = .next t ∧ (railOf t 3).st = .checking ∧ t.aux.railReq = s.aux.railReq ++ [req]
           ∧ ∀ x, x < 3 → railOf t x = railOf s x)
       ∧ (∀ channel : Byte, 1 ≤ channel.toNat → channel.toNat ≤ 6 → (fuseOf s (channel.toNat - 1)).st = .tripped →
         ∃ t, exec (.efuseClear req channel) s = .next t ∧ t.flt.fuseHold.getLsbD channel.toNat = false
           ∧ ((fuseOf t (channel.toNat - 1)).st = .preCheck ∨ (fuseOf t (channel.toNat - 1)).st = .off)
           ∧ ∀ x, x < 6 → x ≠ channel.toNat - 1 → fuseOf t x = fuseOf s x)
       ∧ (∀ channel : Byte, (channel = 5 ∨ channel = 6) →
         (∃ t, exec (.efusePermit req channel 1) s = .next t ∧ (fuseOf t (channel.toNat - 1)).permit = true
           ∧ (fuseOf t (channel.toNat - 1)).st = (fuseOf s (channel.toNat - 1)).st)
         ∧ ∃ t, exec (.efusePermit req channel 0) s = .next t ∧ (fuseOf t (channel.toNat - 1)).permit = false
           ∧ (fuseOf t (channel.toNat - 1)).isOn = false)
       ∧ (∀ code : Byte, 0x21 ≤ code.toNat → code.toNat ≤ 0x26 → (fuseOf s (code.toNat - 0x21)).st = .off →
           mayTurnOn s (code.toNat - 0x21) = true →
         ∃ t, exec (.stepControl req code 1) s = .next t ∧ (fuseOf t (code.toNat - 0x21)).st = .preCheck
           ∧ (fuseOf t (code.toNat - 0x21)).req = (fuseOf s (code.toNat - 0x21)).req ++ [req])
       ∧ (∀ code : Byte, 0x21 ≤ code.toNat → code.toNat ≤ 0x26 → (fuseOf s (code.toNat - 0x21)).st = .on →
           (code.toNat < 0x25 ∨ (fuseOf s (code.toNat - 0x21)).permit = true) → s.aux.shed = [] →
         ∃ t, exec (.stepControl req code 0) s = .next t ∧ (fuseOf t (code.toNat - 0x21)).st = .off
           ∧ (fuseOf t (code.toNat - 0x21)).cause = 0xA)
       ∧ (∀ code action : Byte, 0x25 ≤ code.toNat → code.toNat ≤ 0x26 → action.toNat ≤ 1 → (fuseOf s (code.toNat - 0x21)).permit = false →
           s.aux.shed = [] → s.aux.seqWait = false →
         exec (.stepControl req code action) s = .next (answer req 0x0805 0x12 [] s))
       ∧ ((railOf s 3).st = .off → s.sup.holdup = false → ∃ t, exec (.stepControl req 0x03 1) s = .next t ∧ (railOf t 3).st = .checking
           ∧ t.aux.railReq = s.aux.railReq ++ [req])
       ∧ ((railOf s 3).st = .off → s.sup.holdup = true → s.aux.seqWait = false →
         ∃ t, exec (.stepControl req 0x03 1) s = .next t ∧ (railOf t 3).st = .off ∧ t.aux.railReq = s.aux.railReq ++ [req] ∧ t.aux.shed.contains 0x03 = true)
       ∧ ((railOf s 3).st = .regulating → s.aux.shed = [] → ∃ t, exec (.stepControl req 0x03 0) s = .next t ∧ (railOf t 3).st = .off
           ∧ ∀ x, x < 6 → fusePar s x 7 = 3 → (fuseOf t x).isOn = false))

/-- REC_SEEK, REC_READ, JOURNAL_INFO, JOURNAL_COMPACT and CAPTURE. Rests on 14_command_reference.md, 15_storage_and_recorder.md. -/
def Obligations.RecorderCommandsAct : Prop :=
  (∀ (req : Req) (s : State), Open req (.atLevel .monitor) s →
     exec (.journalInfo req) s = .next (answer req 0x0903 0x00 (leBytes 1 (bit s.nv.activeB 0) ++ leBytes 1 (fillPercent s)
         ++ bvBytes 4 s.nv.jseq ++ bvBytes 4 s.nv.compactions) s)
     ∧ (∀ key, ∃ t, exec (.recSeek req 0 key) s = .next t ∧ (mail t req.mb).cursor = some (oldestSeq s) ∧ t.nv = s.nv
         ∧ Replied req 0x0901 0x00 (bvBytes 4 (oldestSeq s) ++ bvBytes 4 (oldestSeq s) ++ bvBytes 4 (newestSeq s)) s t)
     ∧ (∀ key, s.nv.recs ≠ [] → ∃ t, exec (.recSeek req 1 key) s = .next t ∧ (mail t req.mb).cursor = some (newestSeq s) ∧ t.nv = s.nv)
     ∧ (∀ key : BitVec 64, newer (key.setWidth 32) (newestSeq s) = false →
         ∃ t, exec (.recSeek req 2 key) s = .next t ∧ t.nv = s.nv
           ∧ (mail t req.mb).cursor = some (if newer (oldestSeq s) (key.setWidth 32) then oldestSeq s else key.setWidth 32))
     ∧ (∀ (key : BitVec 64) (newest found : BitVec 32 × Nat), (timedRecords s.nv.recs).head? = some newest → key.toNat ≤ newest.2 →
         (timedRecords s.nv.recs).reverse.find? (fun p => decide (key.toNat ≤ p.2)) = some found →
         ∃ t, exec (.recSeek req 3 key) s = .next t ∧ (mail t req.mb).cursor = some found.1 ∧ t.nv = s.nv)
     ∧ (∀ num : Byte, 1 ≤ num.toNat → num.toNat ≤ 3 →
         let c := (mail s req.mb).cursor.getD (oldestSeq s)
         (newer (oldestSeq s) c = true → ∃ t, exec (.recRead req num) s = .next t ∧ (mail t req.mb).cursor = some (oldestSeq s)
           ∧ Replied req 0x0902 0x21 (0 :: bvBytes 4 (oldestSeq s)) s t)
         ∧ (newer (oldestSeq s) c = false → ∃ t l, exec (.recRead req num) s = .next t
           ∧ l = (t.nv.recs.reverse.filter fun r => !newer c r.seq).take num.toNat
           ∧ ((∀ i ∈ s.flt.injections, i.kind ≠ 3) → t.nv = s.nv)
           ∧ (mail t req.mb).cursor = some (c + BitVec.ofNat 32 l.length)
           ∧ Replied req 0x0902 0x00 (leBytes 1 l.length ++ bvBytes 4 (c + BitVec.ofNat 32 l.length) ++ l.flatMap recordOut) s t)))
  ∧ (∀ (req : Req) (s : State),
       (Open req ⟨.service, false, false, true⟩ s →
         (s.nv.compact = none → s.nv.empty = false →
           ∃ t, exec (.journalCompact req) s = .next t ∧ t.nv.compact = some (1, s.nv.jseq) ∧ t.nv.compactReq = some req
             ∧ Accepted req 0x0904 0x01 s t)
         ∧ (s.nv.compact ≠ none → exec (.journalCompact req) s = .next (answer req 0x0904 0x02 [] s)))
       ∧ (Open req (.atLevel .operator) s →
         (s.clk.pstate = .run → s.nv.capture = .idle →
           ∃ t, exec (.capture req) s = .next t ∧ t.nv.capture = .running ∧ t.nv.capTrig = s.nv.recNext ∧ t.nv.capReq = some req
             ∧ t.nv.capLeft = 1000 ∧ Accepted req 0x0905 0x01 s t)
         ∧ ((s.clk.pstate ≠ .run ∨ s.nv.capture ≠ .idle) → exec (.capture req) s = .next (answer req 0x0905 0x02 [] s))))

/-- AUTH_CHALLENGE, AUTH_RESPONSE, IDENTITY, IDENTITY_KEY, the lockout and the nonce. Rests on 13_host_port_and_mailboxes.md,
16_security_lifecycle_update.md. -/
def Obligations.SessionsAndIdentity : Prop :=
  (∀ (req : Req) (s : State), Open req (.atLevel .monitor) s →
     (∀ level : Byte, 2 ≤ level.toNat → level.toNat ≤ 4 → level.toNat ≤ maxLevel s req.mb → lockedOut s req.mb = false →
       ∃ t n, exec (.authChallenge req level) s = .next t ∧ (mail t req.mb).nonce = some (n, s.clk.now) ∧ n.length = 32
         ∧ Replied req 0x0A01 0x00 n s t ∧ (mail t req.mb).level = (mail s req.mb).level)
     ∧ (∀ (level : Byte) (a : Access) (mac : List Byte), mac.length = 32 → accessOf level.toNat = some a → a ≠ .monitor →
       level.toNat ≤ maxLevel s req.mb → macValid s req.mb a mac = true →
       ∃ t, exec (.authResponse req level mac) s = .next t ∧ (mail t req.mb).nonce = none ∧ Replied req 0x0A02 0x00 [level] s t
         ∧ (mail t req.mb).level = (if Access.code (mail s req.mb).level < level.toNat then a else (mail s req.mb).level))
     ∧ (∀ (level : Byte) (a : Access) (mac : List Byte), mac.length = 32 → accessOf level.toNat = some a → a ≠ .monitor →
       (maxLevel s req.mb < level.toNat ∨ macValid s req.mb a mac = false) →
       ∃ t, exec (.authResponse req level mac) s = .next t ∧ (mail t req.mb).nonce = none ∧ (mail t req.mb).level = (mail s req.mb).level
         ∧ (mail t req.mb).rspQ = (mail s req.mb).rspQ ∧ (mail t req.mb).refusal = some (req, 0x0A02, s.clk.now))
     ∧ (∀ (level : Byte) (mac : List Byte), mac.length = 32 → (level.toNat < 2 ∨ 4 < level.toNat) →
       ∃ t, exec (.authResponse req level mac) s = .next t ∧ (mail t req.mb).nonce = none ∧ (mail t req.mb).level = (mail s req.mb).level
         ∧ (mail t req.mb).rspQ = (mail s req.mb).rspQ ∧ (mail t req.mb).refusal = some (req, 0x0A02, s.clk.now)))
  ∧ (∀ (req : Req) (s : State), Open req (.atLevel .monitor) s →
       (∀ challenge : List Byte, challenge.length = 32 →
         ∃ t, exec (.identity req challenge) s = .next t ∧ t.key = s.key
           ∧ Replied req 0x0A03 0x00 (bvBytes 8 Config.deviceId ++ identitySig s.free challenge s) s t)
       ∧ (∀ challenge : List Byte, challenge.length ≠ 32 → exec (.identity req challenge) s = .next (answer req 0x0A03 0x10 [] s))
       ∧ exec (.identityKey req) s = .next (answer req 0x0A04 0x00 (pubKey s) s))
  ∧ (∀ (mb : Mailbox) (s : State), s.host.mail.length = 4 →
       (∀ at_ : Nat, (mail s mb).lockUntil = some at_ →
         ∃ t, exec (.authLockoutEnd mb) s = .next t ∧ (mail t mb).lockUntil = none ∧ (mail t mb).fails = (mail s mb).fails ∧ at_ ≤ t.clk.now
           ∧ (∀ m, m ≠ mb → mail t m = mail s m) ∧ t.key = s.key)
       ∧ ((mail s mb).lockUntil = none → exec (.authLockoutEnd mb) s = .next s)
       ∧ (∀ (nonce : List Byte) (at_ : Nat), (mail s mb).nonce = some (nonce, at_) →
         ∃ t, exec (.nonceExpiry mb) s = .next t ∧ (mail t mb).nonce = none ∧ (mail t mb).level = (mail s mb).level ∧ at_ + sec 1 ≤ t.clk.now
           ∧ (∀ m, m ≠ mb → mail t m = mail s m) ∧ t.key = s.key)
       ∧ ((mail s mb).nonce = none → exec (.nonceExpiry mb) s = .next s))

/-- KEY_INSTALL and LIFECYCLE_SET change keys and life-cycle only with a valid blob or signature. Rests on 16_security_lifecycle_update.md. -/
def Obligations.KeysAndLifeCycle : Prop :=
  ∀ (req : Req) (s : State), Open req ⟨.service, false, false, true⟩ s →
    (∀ (slot : Byte) (blob k : List Byte), blob.length = 48 → 1 ≤ slot.toNat → slot.toNat ≤ 4 →
      (s.key.life = .provisioned ∨ s.key.life = .fielded) → unwrap s req.mb slot blob = some k →
      ∃ t, exec (.keyInstall req slot 0 blob) s = .next t ∧ Replied req 0x0A05 0x00 [] s t ∧ t.key.rackKey = s.key.rackKey
        ∧ t.key.rackPend = (if slot = 1 then some (k.take 16) else s.key.rackPend)
        ∧ t.key.packKey = (if slot = 2 then some k else s.key.packKey)
        ∧ t.key.opCred = (if slot = 3 then some k else s.key.opCred)
        ∧ t.key.svCred = (if slot = 4 then some k else s.key.svCred))
    ∧ (∀ (slot : Byte) (blob : List Byte), blob.length = 48 → 1 ≤ slot.toNat → slot.toNat ≤ 4 →
      (s.key.life = .provisioned ∨ s.key.life = .fielded) → unwrap s req.mb slot blob = none →
      ∃ t, exec (.keyInstall req slot 0 blob) s = .next t ∧ t.key = s.key ∧ (mail t req.mb).refusal = some (req, 0x0A05, s.clk.now)
        ∧ (mail t req.mb).rspQ = (mail s req.mb).rspQ)
    ∧ (∀ (slot : Byte) (blob : List Byte), blob.length = 48 → (slot = 0 ∨ 4 < slot.toNat) → (s.key.life = .provisioned ∨ s.key.life = .fielded) →
      ∃ t, exec (.keyInstall req slot 0 blob) s = .next t ∧ t.key = s.key ∧ (mail t req.mb).refusal = some (req, 0x0A05, s.clk.now)
        ∧ (mail t req.mb).rspQ = (mail s req.mb).rspQ)
    ∧ (∀ (target : Byte) (goal : LifeCycle) (auth : List Byte), auth.length = 96 → lifeOf target.toNat = some goal →
      ∃ t, exec (.lifecycleSet req target 0 auth) s = .next t
        ∧ (lifeAllowed s goal = true → lifeSigned s goal auth = true → goal ≠ .returned → t.key.life = goal ∧ t.key.erasing = false)
        ∧ (lifeAllowed s goal = true → lifeSigned s goal auth = true → goal = .returned →
            t.key = { s.key with erasing := true } ∧ ∃ r ∈ t.host.running, r.req = req ∧ r.opcode = 0x0A06 ∧ r.done = false)
        ∧ (¬(lifeAllowed s goal = true ∧ lifeSigned s goal auth = true) → t.key = s.key
            ∧ (mail t req.mb).refusal = some (req, 0x0A06, s.clk.now)))
    ∧ (∀ (target : Byte) (auth : List Byte), auth.length = 96 → lifeOf target.toNat = none →
      ∃ t, exec (.lifecycleSet req target 0 auth) s = .next t ∧ t.key = s.key ∧ (mail t req.mb).refusal = some (req, 0x0A06, s.clk.now))

/-- IMAGE_WRITE stores its bytes at its offset in the inactive patch slot and changes no other byte. Rests on 15_storage_and_recorder.md,
16_security_lifecycle_update.md. -/
def Obligations.ImageWriteStoresExactlyItsData : Prop :=
  ∀ (req : Req) (offset : BitVec 32) (data : List Byte) (s : State), Open req (.atLevel .service) s →
    8 ≤ data.length → data.length ≤ 232 → data.length % 8 = 0 → offset.toNat % 8 = 0 → offset.toNat + data.length ≤ 0x80000 →
    s.ring.relaying = false → activationRuns s = false → stagePends s = false → nvRefusal s = none →
    Memory.wf (patchSlot s (inactiveSlot s)) = true →
    ∃ t, exec (.imageWrite req offset data) s = .next t ∧ Replied req 0x0B01 0x00 [] s t ∧ t.upd.img = .partly
      ∧ inactiveSlot t = inactiveSlot s ∧ Memory.wf (patchSlot t (inactiveSlot s)) = true
      ∧ (∀ i, i < data.length → readByte (offset.toNat + i) (patchSlot t (inactiveSlot s)) = data.getD i 0)
      ∧ (∀ a, ¬(offset.toNat ≤ a ∧ a < offset.toNat + data.length) →
          readByte a (patchSlot t (inactiveSlot s)) = readByte a (patchSlot s (inactiveSlot s)))
      ∧ patchSlot t (!inactiveSlot s) = patchSlot s (!inactiveSlot s) ∧ t.nv.fileActive = s.nv.fileActive ∧ t.nv.fileStaged = s.nv.fileStaged

/-- IMAGE_STATUS, IMAGE_VERIFY, IMAGE_RELAY and ACTIVATE. Rests on 16_security_lifecycle_update.md. -/
def Obligations.UpdateCommandsAct : Prop :=
  ∀ (req : Req) (s : State),
    (Serves req (.atLevel .monitor) s → exec (.imageStatus req) s = .next (answer req 0x0B04 0x00 (bvBytes 4 s.upd.active.version
        ++ (if s.upd.img = .verified then bvBytes 4 s.upd.imgInfo.version else [0, 0, 0, 0]) ++ leBytes 2 s.upd.chunks.length
        ++ leBytes 1 s.upd.img.code) s))
    ∧ (Open req (.atLevel .service) s → s.upd.img = .empty → exec (.imageVerify req) s = .next (answer req 0x0B02 0x12 [] s))
    ∧ (Open req (.atLevel .service) s → s.upd.img ≠ .empty →
      ∃ t, exec (.imageVerify req) s = .next t ∧ t.upd.activeSlot = s.upd.activeSlot ∧ t.nv.slot0 = s.nv.slot0 ∧ t.nv.slot1 = s.nv.slot1
        ∧ t.upd.img = (if imageVerifies s (inactiveSlot s) = true then .verified else .failed)
        ∧ (imageVerifies s (inactiveSlot s) = true → t.upd.imgDigest = digestLow (patchSlot s (inactiveSlot s))
            ∧ (mail t req.mb).rspQ = (mail s req.mb).rspQ ++ [response req 0x0B02 false 0x01 []])
        ∧ (imageVerifies s (inactiveSlot s) = false → (mail t req.mb).refusal = some (req, 0x0B02, s.clk.now)))
    ∧ (Open req ⟨.service, true, false, false⟩ s →
      (s.upd.img ≠ .verified → exec (.imageRelay req) s = .next (answer req 0x0B03 0x12 [] s))
      ∧ (s.upd.img = .verified → (s.ring.relaying = true ∨ activationRuns s = true ∨ stagePends s = true) →
        exec (.imageRelay req) s = .next (answer req 0x0B03 0x02 [] s)))
    ∧ (Open req ⟨.service, true, false, false⟩ s → s.upd.img = .verified → s.ring.relaying = false → activationRuns s = false →
      stagePends s = false →
      ∃ t, exec (.imageRelay req) s = .next t ∧ t.ring.relaying = true ∧ t.ring.relaySrc = true ∧ t.ring.relayId = s.upd.imgDigest
        ∧ t.ring.relayReq = some req ∧ Accepted req 0x0B03 0x01 s t)
    ∧ (Open req (.atLevel .service) s → ∀ expect : BitVec 32, s.upd.img = .verified → s.upd.imgDigest = expect →
      s.ring.relaying = false → stagePends s = false → activationRuns s = false →
      ∃ t, exec (.activate req expect) s = .next t ∧ t.upd.actReq = some req ∧ (mail t req.mb).busy = true
        ∧ (mail t req.mb).rspQ = (mail s req.mb).rspQ)
    ∧ (Open req (.atLevel .service) s → ∀ expect : BitVec 32,
      ((s.ring.relaying = true ∨ stagePends s = true ∨ activationRuns s = true) →
        exec (.activate req expect) s = .next (answer req 0x0B05 0x02 [] s))
      ∧ (s.ring.relaying = false → stagePends s = false → activationRuns s = false → (s.upd.img ≠ .verified ∨ s.upd.imgDigest ≠ expect) →
        exec (.activate req expect) s = .next (answer req 0x0B05 0x12 [] s)))

/-- COUNTER_READ, SNAPSHOT, HIST_READ, PRECISE_READ, TRACE_READ and SNAP_ORDER. Rests on 14_command_reference.md, 18_counters_trace_debug.md. -/
def Obligations.CounterCommandsAnswer : Prop :=
  ∀ (req : Req) (s : State),
    (Open req (counterRules s) s →
      (∀ (first num source : Byte) (order : BitVec 32) (c : Cut), 1 ≤ num.toNat → num.toNat ≤ 28 → first.toNat + num.toNat ≤ 96 →
        source.toNat ≤ 2 → cutOf req source order s = some c →
        ∃ t, exec (.counterRead req first num source order) s = .next t ∧ t.cnt.counters = s.cnt.counters ∧ t.cnt.gap = s.cnt.gap
          ∧ Replied req 0x0C01 0x00 (leBytes 8 c.tActual ++ leBytes 4 (maskOf ((c.gap.drop first.toNat).take num.toNat))
              ++ ((c.counters.drop first.toNat).take num.toNat).flatMap (leBytes 8)) s t)
      ∧ (∀ (first num source : Byte) (order : BitVec 32), 1 ≤ num.toNat → num.toNat ≤ 28 → first.toNat + num.toNat ≤ 96 →
        source.toNat ≤ 2 → cutOf req source order s = none →
        exec (.counterRead req first num source order) s = .next (answer req 0x0C01 0x12 [] s))
      ∧ (∃ t, exec (.snapshot req) s = .next t ∧ (mail t req.mb).snap = some (cutNow 0 0 (stampRing s) false s)
          ∧ t.cnt.gap = List.replicate 96 false ∧ t.cnt.counters = s.cnt.counters
          ∧ Replied req 0x0C02 0x00 (leBytes 8 (stampRing s) ++ bvBytes 4 (s.cnt.snapCount + 1)) s t)
      ∧ (∀ (hist half source : Byte) (order : BitVec 32) (c : Cut), hist.toNat ≤ 7 → half.toNat ≤ 1 → source.toNat ≤ 2 →
        cutOf req source order s = some c →
        ∃ t, exec (.histRead req hist half source order) s = .next t
          ∧ Replied req 0x0C04 0x00 (leBytes 8 c.tActual
              ++ (((c.hist.getD hist.toNat []).drop (16 * half.toNat)).take 16).flatMap (leBytes 8)) s t)
      ∧ (∀ first : Byte, exec (.preciseRead req first) s = .next (answer req 0x0C05 0x00 (preciseFields first.toNat s) s)))
    ∧ (Open req (.atLevel .service) s → ∀ offset : BitVec 32,
      (offset.toNat < 16 * s.cnt.trace.length → exec (.traceRead req offset) s = .next (answer req 0x0C06 0x00 (traceAt offset.toNat s) s))
      ∧ (16 * s.cnt.trace.length ≤ offset.toNat → exec (.traceRead req offset) s = .next (answer req 0x0C06 0x11 [] s)))
    ∧ (Open req ⟨.service, true, true, false⟩ s → ∀ tLatch : BitVec 64, s.cnt.orders = [] →
      let tl := if tLatch = 0 then s.clk.ring + ms 2 else tLatch.toNat
      s.clk.ring + ms 1 ≤ tl → tl ≤ s.clk.ring + sec 10 →
      ∃ t, exec (.snapOrder req tLatch) s = .next t ∧ t.cnt.orders = [(s.rack.snapNo + 1, s.rack.epoch, tl)]
        ∧ t.rack.snapNo = s.rack.snapNo + 1
        ∧ Replied req 0x0C03 0x00 (bvBytes 4 (s.rack.snapNo + 1) ++ leBytes 8 tl) s t)

/-- What each reset keeps and loses, and how resets and NOT_READY end. Rests on 03_states_clocks_resets.md, 12_temperature_and_faults.md. -/
def Obligations.ResetsRunTheirCourse : Prop :=
  (∀ s : State,
     (∃ t, exec .powerOnReset s = .next t ∧ t.clk.pstate = State.reset.clk.pstate ∧ t.clk.inReset = some .powerOn
       ∧ t.clk.cycles = (if s.clk.cycles = 0xFFFFFFFF then 0xFFFFFFFF else s.clk.cycles + 1) ∧ t.host = HostS.reset
       ∧ t.nv.slot0 = s.nv.slot0 ∧ t.nv.slot1 = s.nv.slot1 ∧ t.nv.cuts = s.nv.cuts
       ∧ (s.key.erasing = false → t.nv.recs = s.nv.recs ∧ t.key = s.key ∧ t.nv.fileActive = s.nv.fileActive ∧ t.nv.regA = s.nv.regA
           ∧ t.nv.regB = s.nv.regB)
       ∧ (railOf t 2).st = .checking ∧ (railOf t 0).st = .off ∧ (railOf t 1).st = .off)
     ∧ (∀ lowNs : Nat, (lowNs < 100 ∨ (s.clk.pstate ≠ .run ∧ s.clk.pstate ≠ .watch)) → exec (.rstNLow lowNs) s = .next s)
     ∧ ((s.clk.pstate = .run ∨ s.clk.pstate = .watch) →
       (∃ t, exec .controllerReset s = .next t ∧ t.clk.inReset = some .controller
         ∧ t.cnt.gap = List.replicate 96 true ∧ (∀ mb, (mail t mb).reqQ = [] ∧ (mail t mb).level = .monitor ∧ (mail t mb).staged = [])
         ∧ t.host.running = [] ∧ t.rack.wellhead = false ∧ t.host.irqEn = s.host.irqEn ∧ t.chg.cells.length = s.chg.cells.length
         ∧ t.clk.rstOwnUntil = some (t.clk.now + us 20)
         ∧ ∀ due, s.host.restart = some (false, due) → due ≤ t.clk.now ∧ s.nv.writeUntil ≤ t.clk.now)
       ∧ (∃ t, exec .brownOut s = .next t ∧ t.clk.inReset = some .brownOut ∧ t.clk.pll = false ∧ t.clk.railsGood = false
         ∧ t.clk.rstOwnHold = true ∧ t.ring.lka.state = .down ∧ t.ring.lkb.state = .down ∧ t.host.running = [])
       ∧ (s.dbg.haltedCp = false → s.clk.inReset = none →
         ∃ t, exec .cpWatchdogExpiry s = .next t ∧ t.clk.inReset = some .controller ∧ t.flt.fstat.getLsbD 8 = true ∧ t.host.running = [])
       ∧ (∀ lowNs : Nat, 100 ≤ lowNs → s.clk.rstOwnHold = true →
         ∃ t, exec (.rstNLow lowNs) s = .next t ∧ t = { s with clk := { s.clk with rstExt := true } })
       ∧ (∀ lowNs own : Nat, 100 ≤ lowNs → s.clk.rstOwnHold = false → s.clk.rstOwnUntil = some own → s.clk.now < own →
         ∃ t, exec (.rstNLow lowNs) s = .next t
           ∧ t = { s with clk := { s.clk with rstExt := s.clk.rstExt || decide (own < s.clk.now + lowNs) } })
       ∧ (∀ lowNs : Nat, 100 ≤ lowNs → lowNs < 1000 → s.clk.rstOwnHold = false → (∀ own, s.clk.rstOwnUntil = some own → own ≤ s.clk.now) →
         exec (.rstNLow lowNs) s = .next s)
       ∧ (∀ lowNs : Nat, 1000 ≤ lowNs → s.clk.rstOwnHold = false → (∀ own, s.clk.rstOwnUntil = some own → own ≤ s.clk.now) →
         ∃ t, exec (.rstNLow lowNs) s = .next t ∧ t.clk.inReset = some .controller ∧ t.clk.rstExt = decide (21000 < lowNs)
           ∧ t.host.running = []))
     ∧ (s.clk.pstate = .run → s.dbg.haltedLp = false → s.clk.inReset = none →
       ∃ t, exec .lpWatchdogExpiry s = .next t ∧ t.clk.inReset = some .controller ∧ t.flt.fstat.getLsbD 8 = true ∧ t.host.running = []))
  ∧ (∀ s : State,
       (s.clk.rstExt = true → ∃ t, exec .rstNRelease s = .next t ∧ t = { s with clk := { s.clk with rstExt := false, resetAt := s.clk.now } })
       ∧ (∃ t, exec .controlRailsGood s = .next t ∧ t = { s with clk := { s.clk with railsGood := true, rstOwnHold := false, resetAt := s.clk.now } })
       ∧ (∀ k, s.clk.inReset = some k → s.clk.rstExt = false → s.clk.rstOwnHold = false →
         ∃ t, exec .recoveryComplete s = .next t ∧ t.clk.inReset = none ∧ t.clk.replayed = true
           ∧ (s.clk.replayed = true → s.lad.parkRun = .none → s.lad.freezeAt ≠ none → t.lad.freezeAt = none ∧ ∀ l ∈ t.lad.levels, l.frozen = false))
       ∧ ((s.clk.rstExt = true ∨ s.clk.rstOwnHold = true) → exec .recoveryComplete s = .next s)
       ∧ (s.clk.notReady = true → readyNow s = true → (s.clk.inReset = none ∨ s.clk.inReset = some .powerOn) →
         ∃ t, exec .notReadyClear s = .next t ∧ t.clk.notReady = false ∧ t.clk.inReset = none ∧ t.lad = s.lad)
       ∧ (readyNow s = false → exec .notReadyClear s = .next s))

/-- Supply selection, bands and hold-up: what each event of the supplies changes. Rests on 02_package_and_supplies.md, 11_aux_power.md. -/
def Obligations.SupplyEventsAndHoldUp : Prop :=
  (∀ s : State,
     (∀ input : Carry, s.sup.carry ≠ input → s.clk.pstate ≠ .off → s.cnt.counters.length = 96 →
       ∃ t, exec (.supplySwitchover input) s = .next t ∧ t.sup = { s.sup with carry := input } ∧ t.lad = s.lad ∧ t.host = s.host
         ∧ t.clk = s.clk ∧ t.cnt.counters.getD 85 0 = s.cnt.counters.getD 85 0 + 1)
     ∧ (∀ vmain vaux : Nat, max vmain vaux ≤ 65000 →
       ∃ t, exec (.supplyBandChange vmain vaux) s = .next t
         ∧ t.sup = { s.sup with vmain := vmain, vaux := vaux, vor := max vmain vaux, band := bandOf (max vmain vaux) }
         ∧ (60000 < max vmain vaux → ∀ r ∈ t.aux.rails, r.fsw ≤ 1000) ∧ t.lad = s.lad ∧ t.host = s.host)
     ∧ (∀ vmain vaux : Nat, 65000 < max vmain vaux → exec (.supplyBandChange vmain vaux) s = .fault .outsideEnvironment)
     ∧ (s.sup.holdup = false → s.clk.pstate ≠ .off →
       (∀ fromMv toMv chargeNs chargeUa : Nat,
         ∃ t, exec (.vholdCharged fromMv toMv chargeNs chargeUa) s = .next t ∧ t.sup.vhold = toMv
           ∧ (fromMv < toMv → s.sup.ceff = 0 → t.sup.ceff = chargeUa * chargeNs / (toMv - fromMv) / 1000)
           ∧ (12000 ≤ fromMv → s.sup.ceff ≠ 0 → t.sup.ceff = s.sup.ceff)
           ∧ (ms 400 < chargeNs → t.sup.faulty = true) ∧ (chargeNs ≤ ms 400 → fromMv < 1000 → 13800 ≤ toMv → t.sup.faulty = false))
       ∧ (∃ t, exec .vholdChargeTimeout s = .next t ∧ t = { s with sup := { s.sup with faulty := true } })))
  ∧ (∀ s : State,
       (s.sup.holdup = false → s.clk.pstate ≠ .off → s.lad.levels.length = 16 → s.aux.rails.length = 4 → s.aux.fuses.length = 6 →
         ∃ t, exec .holdupEntry s = .next t ∧ t.sup.holdup = true ∧ t.sup.latchDue = true ∧ t.lad.adm = .out
           ∧ (∀ k, k < 16 → present s k = true → (lvl s k).st ≠ .retired → (lvl t k).st = .parked)
           ∧ (∀ x ∈ [0, 1, 2, 3, 5], (fuseOf t x).isOn = false ∧ (fuseOf t x).st ≠ .preCheck)
           ∧ ((railOf t 3).st = .off ∨ (railOf t 3).st = .latchedOff))
       ∧ (s.sup.holdup = true → exec .holdupEntry s = .next s)
       ∧ (s.sup.holdup = true → s.clk.pstate ≠ .off →
         (∃ t, exec .holdupExit s = .next t ∧ t.sup.holdup = false ∧ t.chg.latched = false ∧ t.chg.cells = s.chg.cells ∧ t.lad.levels = s.lad.levels)
         ∧ (∃ t, exec .holdupCollapse s = .next t ∧ t.clk.pstate = .off ∧ t.sup.vhold = 6000 ∧ t.lad.sby = false
             ∧ (∀ l ∈ t.lad.levels, l.insGate = false ∧ l.bypGate = false) ∧ t.ring.lka.state = .down ∧ t.ring.lkb.state = .down
             ∧ t.nv = s.nv ∧ t.key = s.key))
       ∧ (s.sup.holdup = true → s.sup.latchDue = true →
         ((presentLevels s).all fun k => (lvl s k).sensedOut || (lvl s k).isStuckIn) = true →
         ∃ t, exec .finalCounterLatch s = .next t ∧ t.chg = { s.chg with latched := true } ∧ t.sup.latchDue = false))

/-- Still, Watch and Run: what wakes the shelf, what sends it to Still, and what a vote needs. Rests on 03_states_clocks_resets.md,
09_rack_coordination.md. -/
def Obligations.SleepAndWake : Prop :=
  (∀ s : State,
     (s.clk.pstate = .still → s.clk.dwellUntil ≤ s.clk.now →
       (∀ currentMa q : Int, (wakeMa s : Int) < currentMa.natAbs →
         ∃ t, exec (.wakeCurrent currentMa q) s = .next t ∧ t.clk.pstate = .watch ∧ t.clk.wakeKind = .rackWake ∧ t.clk.coarseOn = true
           ∧ (s.clk.coarseOn = false → t.chg.coarseQ = (q : Rat) / 1000000000 ∧ t.chg.coarseAt = s.clk.now))
       ∧ (∀ currentMa q : Int, currentMa.natAbs ≤ wakeMa s → exec (.wakeCurrent currentMa q) s = .next s)
       ∧ (∀ lowNs : Nat, ∃ t, exec (.wakeIn lowNs) s = .next t ∧ t.clk.pstate = .watch ∧ t.clk.wakeKind = .rackWake ∧ t.clk.toneUntil = some (t.clk.now + us 200)
           ∧ t.clk.toneDeaf = s.clk.now + ms 2 ∧ t.clk.replayed = true ∧ t.mod = s.mod)
       ∧ (∀ port : Port, s.clk.toneDeaf ≤ s.clk.now →
           ∃ t, exec (.wakeToneDetected port) s = .next t ∧ t.clk.pstate = .watch ∧ t.clk.wakeKind = .rackWake ∧ t.clk.toneUntil = some (t.clk.now + us 200))
       ∧ (∀ port : Port, s.clk.now < s.clk.toneDeaf → exec (.wakeToneDetected port) s = .next s)
       ∧ (∀ (outside : BitVec 16) (vholdMv ns ua : Nat), (∃ k, k < 16 ∧ present s k = true ∧ outside.getLsbD k = true) →
           ∃ t, exec (.cellScan outside vholdMv ns ua) s = .next t ∧ t.clk.pstate = .watch ∧ t.clk.wakeKind = .rackWake
             ∧ t.sup.vhold = (if vholdMv < 13000 then 14000 else vholdMv))
       ∧ (∀ (outside : BitVec 16) (vholdMv ns ua : Nat), (∀ k, k < 16 → present s k = true → outside.getLsbD k = false) →
           ∃ t, exec (.cellScan outside vholdMv ns ua) s = .next t ∧ t = { s with sup := t.sup }
             ∧ t.sup.vhold = (if vholdMv < 13000 then 14000 else vholdMv)
             ∧ (vholdMv < 12000 → t.sup.ceff = ua * ns / (14000 - vholdMv) / 1000)
             ∧ (12000 ≤ vholdMv → s.sup.ceff ≠ 0 → t.sup.ceff = s.sup.ceff)))
     ∧ (s.clk.pstate = .still → s.clk.now < s.clk.dwellUntil →
         ∀ lowNs : Nat, ∃ t, exec (.wakeIn lowNs) s = .next t ∧ t = { s with clk := { s.clk with wakeLatch := true } })
     ∧ (s.clk.pstate = .still → s.clk.wakeLatch = true →
         ∃ t, exec .stillDwellEnd s = .next t ∧ t.clk.pstate = .watch ∧ t.clk.wakeLatch = false ∧ s.clk.dwellUntil ≤ t.clk.now)
     ∧ (∀ at_ : Nat, s.clk.pstate = .still → s.clk.wakeTimerAt = some at_ →
         ∃ t, exec .wakeTimerExpiry s = .next t ∧ t.clk.pstate = .watch ∧ t.clk.wakeKind = .localWake ∧ t.clk.wakeTimerAt = none
           ∧ at_ ≤ t.clk.now)
     ∧ (s.clk.pstate = .watch → s.clk.wakeKind ≠ .localWake → (s.ring.lka.state = .up ∨ s.ring.lkb.state = .up) →
         (configured s = true ∨ s.clk.timeState = .synced) → s.clk.inReset = none →
         ∃ t, exec .watchToRun s = .next t ∧ t.clk.pstate = .run ∧ t.clk.pll = true ∧ t.rack.runAt = s.clk.now
           ∧ t.key.rackKey = s.key.rackPend.or s.key.rackKey ∧ t.key.rackPend = none ∧ t.chg.commitAt = s.clk.now + sec 10)
     ∧ (s.clk.pstate = .watch → s.clk.wakeKind = .localWake → s.clk.wakeLatch = false →
         ∃ t, exec .watchToStill s = .next t ∧ t.clk.pstate = .still ∧ t.clk.pll = false ∧ t.ring.lka.state = .down ∧ t.ring.lkb.state = .down))
  ∧ (∀ s : State,
       (∀ tc : Nat, s.clk.pstate = .run → s.rack.sleepAt = some tc → s.lad.levels.length = 16 →
         ∃ t, exec .stillEntry s = .next t ∧ t.clk.pstate = .still ∧ t.clk.pll = false ∧ t.clk.timeState = .none ∧ t.rack.sleepAt = none
           ∧ t.ring.lka.state = .down ∧ t.ring.lkb.state = .down ∧ t.host.running = []
           ∧ ∀ k, k < 16 → present s k = true → (lvl s k).st ≠ .retired → (lvl t k).st = .parked)
       ∧ (s.rack.sleepAt = none → exec .stillEntry s = .next s)
       ∧ (s.rack.voting = true → ∃ t, exec .sleepVoteTimeout s = .next t ∧ t.rack.voting = false ∧ t.rack.sleepAt = s.rack.sleepAt
           ∧ t.rack.voteReq = none ∧ s.rack.voteDue ≤ t.clk.now)
       ∧ (∀ ns : Nat, s.clk.pstate = .run →
           (s.rack.sleepAt ≠ none →
             ∃ t, exec (.sleepVeto ns) s = .next t
               ∧ t = { s with clk := { s.clk with wakeLatch := true, wakeActive := max s.clk.wakeActive (s.clk.now + ns) } })
           ∧ (s.rack.sleepAt = none → s.rack.wellhead = true → s.rack.voting = true →
             ∃ t, exec (.sleepVeto ns) s = .next t ∧ t.rack.voting = false ∧ t.rack.sleepAt = none)
           ∧ (∀ v, s.rack.sleepAt = none → s.rack.wellhead = false → s.rack.votedYes = some v →
             ∃ t, exec (.sleepVeto ns) s = .next t ∧ t.rack.votedYes = none)
           ∧ (s.rack.sleepAt = none → (s.rack.wellhead = false ∨ s.rack.voting = false) → s.rack.votedYes = none →
             ∃ t, exec (.sleepVeto ns) s = .next t
               ∧ t = { s with clk := { s.clk with wakeActive := max s.clk.wakeActive (s.clk.now + ns) } })))

/-- The shore clock, the PLL reference, holdover, loss of time, TSYNC and the mirror. Rests on 03_states_clocks_resets.md. -/
def Obligations.ClocksFollowTheirSources : Prop :=
  ∀ s : State,
    (s.par 0x0112 = 1 → s.clk.shoreLost = false → s.clk.pstate ≠ .off →
      ∃ t, exec .shoreClockToCrystal s = .next t ∧ t = { s with clk := { s.clk with shoreXtal := true } })
    ∧ (s.clk.shoreXtal = true → ∃ t, exec .shoreCrystalLoss s = .next t ∧ t.clk.shoreXtal = false ∧ t.clk.shoreLost = true
        ∧ t.flt.fstat.getLsbD 19 = true)
    ∧ (s.clk.pstate = .run → s.clk.pll = true → ∃ t, exec .referenceLoss s = .next t ∧ t.clk.pll = false ∧ t.chg.clkRc = true
        ∧ t.flt.fstat.getLsbD 31 = true ∧ t.lad.oos = true)
    ∧ (s.clk.pstate = .run → s.rack.wellhead = false → s.clk.timeState = .synced →
        ∃ t, exec .holdoverEntry s = .next t ∧ t.clk.timeState = .holdover ∧ s.clk.lastSync + ms 1 ≤ t.clk.now)
    ∧ (s.clk.timeState = .holdover → ∃ t, exec .timeLost s = .next t ∧ t.clk.timeState = .lost ∧ t.clk.tsyncUntil = none
        ∧ s.clk.lastSync + ms 1 + sec 1 ≤ t.clk.now)
    ∧ (s.clk.pstate = .run → s.clk.ringKnown = true → s.clk.timeState ≠ .lost →
        ∃ t, exec .tsyncPulse s = .next t ∧ t.clk.tsyncUntil = some (t.clk.now + us 10) ∧ t.lad = s.lad)
    ∧ ((s.clk.pstate ≠ .run ∨ s.clk.timeState = .lost) → exec .tsyncPulse s = .next s)
    ∧ ((s.clk.pstate = .run ∨ s.clk.pstate = .watch) →
        ∃ t, exec .shoreMirrorRefresh s = .next t ∧ t.cnt.mirror = s.cnt.counters ∧ t.cnt.mirrorHist = s.cnt.hist ∧ s.clk.now < t.clk.now)
    ∧ (onRing s = true → s.rack.wellhead = true → s.clk.firstSyncDue = true →
        (∀ h ∈ serviceShelves s, h = position s ∨ ∃ r ∈ s.clk.shoreReports, r.1 = h) →
        let high := (s.clk.shoreReports.map (·.2)).foldl max (highTime s)
        ∃ t, exec .firstSyncAfterWake s = .next t ∧ high + ms 1 ≤ t.clk.ring
          ∧ (s.ring.lka.state = .up → freshT 2 s ≤ high → (portOf t .lka).lastTx = some (high + ms 1))
          ∧ t.clk.timeState = .synced ∧ t.clk.firstSyncDue = false)

/-- Control periods, frames, carrier peaks, missing commands, and the end of hold. Rests on 05_ladder_modulation.md, 09_rack_coordination.md. -/
def Obligations.PeriodsAndFramesAdvance : Prop :=
  ∀ s : State, s.clk.pstate = .run →
    (∃ t, exec .controlPeriod s = .next t ∧ t.mod.period = t.clk.ring / 10000 ∧ t.mod.closed = false ∧ t.clk.lpMissed = 0
      ∧ s.clk.now ≤ t.clk.now ∧ t.lad.parkMask = 0 ∧ t.lad.parkTag = []
      ∧ (∀ v, s.mod.nextCmd = some v → s.mod.nextFor = t.mod.period → t.mod.vcmd = v ∧ t.mod.nextCmd = none ∧ t.mod.hold = false)
      ∧ ((s.mod.nextCmd = none ∨ s.mod.nextFor ≠ t.mod.period) → t.mod.vcmd = s.mod.vcmd
          ∧ t.mod.hold = (s.mod.hold || s.mod.missNext))
      ∧ (s.lad.parkMask = 0xFFFF → s.lad.levels.length = 16 → t.lad.adm = .out
          ∧ ∀ k, k < 16 → present t k = true → (lvl s k).st ≠ .retired → (lvl t k).st = .parked))
    ∧ (∃ t, exec .frameBoundary s = .next t ∧ t.mod.budgetUsed = 0 ∧ t.mod.budgetSat = false
      ∧ (let at0 := max s.clk.ring (10000 * (s.mod.period + 1))
         t.mod.frameLen = (if instantFrom (10000 * committedF s) 0 at0 ≤ instantFrom (10000 * s.mod.frameLen) 0 at0 then committedF s
                           else s.mod.frameLen))
      ∧ t.mod.sumDuty = List.replicate 16 0 ∧ t.mod.sumTau = List.replicate 16 0 ∧ t.mod.carry.length = 16
      ∧ (∀ x ∈ t.mod.carry, -1 ≤ x ∧ x ≤ 1) ∧ t.lad.levels = s.lad.levels)
    ∧ (∃ t, exec .carrierPeak s = .next t ∧ t.mod.latched = (if s.mod.trim.isSome then s.mod.trimDuty else 0)
      ∧ t.mod.trim = s.mod.trim ∧ t.lad = s.lad ∧ (s.lad.sby = false → t.mod.phase = phaseStep s)
      ∧ (s.lad.sby = true → t.mod.phase = s.mod.phase ∨ t.mod.phase = some s.mod.phaseGoal))
    ∧ (¬(s.mod.nextCmd.isSome = true ∧ s.mod.nextFor = s.mod.period + 1) →
      ∃ t, exec .commandMissing s = .next t ∧ t.mod.missNext = true ∧ t.mod.hold = s.mod.hold ∧ t.mod.missedRun = s.mod.missedRun + 1 ∧ t.mod.vcmd = s.mod.vcmd ∧ t.lad = s.lad)
    ∧ (s.mod.hold = true → s.mod.holdExp = false →
      ∃ t, exec .holdExpiry s = .next t ∧ t.mod.holdExp = true ∧ s.mod.lastCmdAt + ms 20 ≤ t.clk.now ∧ t.lad = s.lad
        ∧ (contactorFeed s = false → t.aux = s.aux)
        ∧ (contactorFeed s = true → s.par 0x0327 = 1 → s.aux.fuses.length = 6 → (fuseOf t 4).isOn = false))
    ∧ (∀ at_ : Nat, s.lad.idleSince = some at_ → s.mod.holdExp = true →
      ∃ t, exec .holdPark s = .next t ∧ t.lad.parkMask = 0xFFFF ∧ at_ + ms 10 ≤ t.clk.now ∧ s.mod.lastCmdAt + ms 30 ≤ t.clk.now
        ∧ t.lad.levels = s.lad.levels ∧ t.lad.adm = s.lad.adm)

/-- A COMMAND sets the next period, and the set is filled up to the voltage commanded. Rests on 05_ladder_modulation.md, 09_rack_coordination.md,
10_relide_ring.md. -/
def Obligations.ACommandSetsTheNextPeriodsLevels : Prop :=
  (∀ (v base : Rat) (xs : List Share), base ≤ v →
     let p := fillSet v xs base []
     let inSum := fun (n : Nat) => base + sumRat ((xs.take n).map (·.v))
     ∃ n, n ≤ xs.length ∧ p.full = (xs.take n).map (·.k) ∧ (inSum n ≤ v ∨ n = 0)
       ∧ (p.trim = none → inSum n = v ∨ n = xs.length)
       ∧ (∀ k, p.trim = some k → ∃ x, xs[n]? = some x ∧ x.k = k ∧ v < inSum (n + 1) ∧ p.duty = toF32 ((v - inSum n) / x.v)))
  ∧ (∀ (port : Port) (f : Frame) (s : State), Applies port f s → f.ftype = 1 → s.rack.wellhead = false →
       let e := BitVec.ofNat 32 (fieldAt f.body 0 4)
       let r := endReceipt port f s
       ((s.rack.everObeyed = false ∨ newer s.rack.obeyed e = false) →
         ∃ t, exec (.commandReceived port f) s = .next t ∧ t.mod.lastCmdAt = r.clk.now ∧ t.rack.obeyed = e ∧ t.rack.everObeyed = true
           ∧ t.rack.leader = f.src.toNat ∧ t.rack.lost = false ∧ (portOf t port).window = false ∧ t.lad.levels = s.lad.levels
           ∧ (located s = true → t.mod.nextFor = commandPeriod r f ∧ t.mod.nextCmd = some (commandedV t t.rack.xLast) ∧ t.mod.missedRun = 0)
           ∧ (located s = false → t.mod = { s.mod with lastCmdAt := r.clk.now }))
       ∧ (s.rack.everObeyed = true → newer s.rack.obeyed e = true →
         ∃ t, exec (.commandReceived port f) s = .next t ∧ t.mod = s.mod ∧ t.rack = { s.rack with shelves := t.rack.shelves } ∧ t.lad = s.lad
           ∧ (portOf t port).window = false))

/-- The guard parks, freezes, retires and releases levels as its causes say. Rests on 04_cell_ladder.md, 05_ladder_modulation.md. -/
def Obligations.TheGuardParksFreezesAndReleases : Prop :=
  (∀ s : State, s.clk.pstate ≠ .off → s.lad.levels.length = 16 →
     (∀ (k : Lvl) (l : CellLimit), present s k.val = true → (lvl s k.val).st ≠ .retired → (lvl s k.val).st ≠ .parked →
       ∃ t, exec (.guardCellLimit k l) s = .next t ∧ (lvl t k.val).st = .parked ∧ (lvl t k.val).cause = cellLimitCause l
         ∧ (lvl t k.val).insGate = false ∧ (lvl t k.val).bypGate = (lvl s k.val).bsOk ∧ t.flt.fstat.getLsbD 24 = true
         ∧ t.cnt.counters.getD 22 0 = (s.cnt.counters.modify 22 (· + 1)).getD 22 0 ∧ (∀ j, j ≠ k.val → lvl t j = lvl s j)
         ∧ t.lad.adm = s.lad.adm ∧ t.clk = s.clk ∧ t.host = s.host ∧ t.cfg = s.cfg)
     ∧ (∀ (k : Lvl) (l : CellLimit), (present s k.val = false ∨ (lvl s k.val).st = .retired ∨ (lvl s k.val).st = .parked) →
       exec (.guardCellLimit k l) s = .next s)
     ∧ (∀ r : ParkAll, noParkAll s r = false → ∃ t, exec (.guardParkAll r) s = .next t ∧ t.lad.adm = .out ∧ t.lad.ocHold = true
         ∧ t.flt.fstat.getLsbD 24 = true ∧ t.lad.sby = (s.lad.sby || (s.lad.supplies && bypassAllowed t)) ∧ t.rack.wellhead = false
         ∧ (s.rack.wellhead = false → t.clk = s.clk ∧ t.host = s.host ∧ t.cfg = s.cfg)
         ∧ ∀ k, k < 16 → present t k = true → (lvl s k).st ≠ .retired →
             (lvl t k).st = .parked
             ∧ ((lvl s k).st ≠ .parked → (lvl t k).cause = parkAllCause r ∧ (lvl t k).insGate = false ∧ (lvl t k).bypGate = (lvl t k).bsOk))
     ∧ (∀ r : ParkAll, noParkAll s r = true → exec (.guardParkAll r) s = .next s)
     ∧ (∀ (k : Lvl) (at_ : Nat), scheduling s = true → (lvl s k.val).clearedAt = some at_ →
       (lvl s k.val).st = .parked → guardCause (lvl s k.val).cause = true → s.lad.severeHold = false → (lvl s k.val).tapPark = false →
       ∃ t, exec (.guardRelease k) s = .next t ∧ (∀ j, j ≠ k.val → lvl t j = lvl s j) ∧ (lvl t k.val).clearedAt = none
         ∧ (ntcHolds s k.val = false → (lvl t k.val).st = .bypassed ∧ (lvl t k.val).insGate = false
             ∧ (lvl t k.val).bypGate = (lvl s k.val).bsOk ∧ at_ + sec 1 ≤ t.clk.now)
         ∧ (ntcHolds s k.val = true → (lvl t k.val).st = .parked ∧ (lvl t k.val).cause = 0x5))
     ∧ (∀ up ins byp : BitVec 16, ∃ t, exec (.gateSupplyUp up ins byp) s = .next t ∧ t = { s with lad := t.lad } ∧ t.lad.supplies = true
         ∧ (∀ k, k < 16 → (up.getLsbD k = false ∨ (lvl s k).bsOk = true) → lvl t k = lvl s k)
         ∧ ∀ k, k < 16 → up.getLsbD k = true → (lvl s k).bsOk = false → (lvl t k).bsOk = true
           ∧ ((lvl s k).st = .retired → (lvl t k).st = .retired)
           ∧ ((lvl s k).st = .parked → (lvl t k).st = .parked ∧ (lvl t k).cause = (lvl s k).cause ∧ (lvl t k).insGate = false)
           ∧ ((lvl s k).st ≠ .retired → (lvl s k).st ≠ .parked → ins.getLsbD k = true →
               (lvl t k).cause = 0xB ∧ (lvl t k).insGate = false ∧ (lvl t k).bypGate = false)
           ∧ ((lvl s k).st ≠ .retired → (lvl s k).st ≠ .parked → ins.getLsbD k = false → byp.getLsbD k = true →
               (lvl t k).cause = 0xC ∧ (lvl t k).insGate = false ∧ (lvl t k).bypGate = false)
           ∧ ((lvl s k).st ≠ .retired → (lvl s k).st ≠ .parked → ins.getLsbD k = false → byp.getLsbD k = false →
               (lvl t k).st = .bypassed ∧ (lvl t k).insGate = false ∧ (lvl t k).bypGate = true))
     ∧ (∀ (k : Lvl) (stuck : Bool), present s k.val = true → ((lvl s k.val).st ≠ .retired ∨ s.lad.checkLeft.any (·.val == k.val) = true) →
       ∃ t, exec (.gateStuck k stuck) s = .next t ∧ (lvl t k.val).st = .retired ∧ (lvl t k.val).cause = 0xE ∧ (lvl t k.val).stuckIn = stuck
         ∧ (lvl t k.val).insGate = (stuck && (lvl s k.val).bsOk) ∧ (lvl t k.val).bypGate = (!stuck && (lvl s k.val).bsOk)
         ∧ t.flt.fstat.getLsbD 23 = true)
     ∧ ∃ t, exec .shelfBypassForceOpen s = .next t ∧ t = { s with lad := { s.lad with sby := s.lad.sby && bypassAllowed s } })
  ∧ (∀ s : State, s.lad.levels.length = 16 →
       ((s.clk.inReset ≠ none ∨ s.dbg.forced = true) → s.lad.freezeAt = none →
         ∃ t, exec .freeze s = .next t ∧ t.lad.freezeAt = some s.clk.now ∧ t.mod.trim = none
           ∧ (∀ k, k < 16 → present s k = true → (lvl s k).st = .trim → (lvl t k).frozen = true
               ∧ (lvl t k).st = (if 1 / 2 ≤ s.mod.latched then .inserted else .bypassed))
           ∧ (∀ k, k < 16 → present s k = true → ((lvl s k).st = .inserted ∨ (lvl s k).st = .bypassed) →
               lvl t k = { lvl s k with frozen := true })
           ∧ (∀ k, k < 16 → (present s k = false ∨ (lvl s k).st = .parked ∨ (lvl s k).st = .retired) → lvl t k = lvl s k)
           ∧ t.cnt.counters = s.cnt.counters.modify 23 (· + 1) ∧ t.clk = s.clk ∧ t.host = s.host)
       ∧ (s.lad.freezeAt ≠ none → exec .freeze s = .next s)
       ∧ (∀ at_ : Nat, s.lad.freezeAt = some at_ → s.lad.parkRun = .none →
         ∃ t, exec .freezeExpiry s = .next t ∧ t.lad.parkRun = .freezeExpiry ∧ at_ + ms 40 ≤ t.clk.now ∧ t.lad.levels = s.lad.levels)
       ∧ (∀ k : Nat, s.lad.parkRun ≠ .none → topToPark s = some k →
         ∃ t, exec .parkStep s = .next t ∧ (lvl t k).st = .parked
           ∧ (lvl t k).cause = (if s.lad.parkRun = .freezeExpiry then 0x7 else 0x1) ∧ s.lad.parkNext ≤ t.clk.now
           ∧ (t.lad.parkRun = s.lad.parkRun → t.lad.parkNext = t.clk.now + us 50 ∧ ∀ j, j ≠ k → lvl t j = lvl s j)
           ∧ (t.lad.parkRun = .none → t.lad.adm = .out
               ∧ ∀ j, j < 16 → present s j = true → (lvl t j).st = .parked ∨ (lvl t j).st = .retired))
       ∧ (s.par 0x030B = 1 → s.lad.disc = .none → isAdmitted s = true → stuckLimit s = some 0 →
         ∃ t, exec .packDisconnect s = .next t ∧ t.lad.disc = .waiting ∧ t.lad.discDue = s.clk.now + ms 100 ∧ t.lad.levels = s.lad.levels
           ∧ (s.aux.fuses.length = 6 → (t.aux.fuses.getD 4 Efuse.reset).isOn = false))
       ∧ (∀ mv : Int, s.lad.disc = .waiting → mv < 500 →
         ∃ t, exec (.packDisconnectDone mv) s = .next t ∧ t.lad.disc = .done ∧ t.lad.oos = true ∧ t.lad.adm = .out
           ∧ ∀ k, k < 16 → present s k = true → (lvl t k).st = .parked ∨ (lvl t k).st = .retired)
       ∧ (∀ mv : Int, (s.lad.disc ≠ .waiting ∨ 500 ≤ mv) → exec (.packDisconnectDone mv) s = .next s)
       ∧ (s.lad.disc = .waiting →
         ∃ t, exec .packDisconnectTimeout s = .next t ∧ t.lad.disc = .failed ∧ t.flt.fstat.getLsbD 10 = true ∧ s.lad.discDue ≤ t.clk.now
           ∧ t.lad.levels = s.lad.levels ∧ t.lad.adm = s.lad.adm))

/-- The pre-start check, admission, the start ramp and its abort. Rests on 04_cell_ladder.md, 05_ladder_modulation.md. -/
def Obligations.AStartIsCheckedRampedOrAborted : Prop :=
  ∀ s : State, s.lad.levels.length = 16 →
    (∀ (k : Lvl) (a b : CheckReading), s.lad.checkLeft.any (·.val == k.val) = true → checkRuns s = true →
      (s.lad.sby = true ∨ absRat (stringA s) < 2) →
      ∃ t, exec (.preStartCheckLevel k a b) s = .next t ∧ t.lad.checkLeft.any (·.val == k.val) = false
        ∧ (lvl t k.val).check = checkResult a b
        ∧ (checkResult a b = 1 → ((lvl s k.val).st = .retired ∨ (lvl s k.val).failed = true) → ntcHolds s k.val = false → (lvl t k.val).st = .bypassed)
        ∧ (checkResult a b = 2 → (lvl t k.val).st = .retired ∧ (lvl t k.val).cause = 0xB ∧ (lvl t k.val).stuckIn = true)
        ∧ (checkResult a b = 3 → (lvl t k.val).st = .retired ∧ (lvl t k.val).cause = 0xC ∧ (lvl t k.val).stuckIn = false)
        ∧ (checkResult a b = 4 → (lvl t k.val).st = .retired ∧ (lvl t k.val).cause = 0xD ∧ (lvl t k.val).stuckIn = false)
        ∧ (checkResult a b = 5 → (lvl t k.val).st = .retired ∧ (lvl t k.val).cause = 0xE ∧ (lvl t k.val).stuckIn = true)
        ∧ ((checkResult a b = 6 ∨ checkResult a b = 7) → (lvl t k.val).st = .parked ∧ (lvl t k.val).cause = 0xF ∧ (lvl t k.val).insGate = false
            ∧ (lvl t k.val).bypGate = false ∧ t.flt.fstat.getLsbD 31 = true ∧ t.lad.oos = true))
    ∧ (s.clk.pstate = .run → mayStart s = true →
      ∃ t, exec .admission s = .next t ∧ t.lad.levels = s.lad.levels
        ∧ (checkNeeded s = true → toCheck s ≠ [] → t.lad.adm = .checking ∧ t.lad.checkLeft = toCheck s ∧ t.lad.sby = s.lad.sby)
        ∧ ((checkNeeded s = false ∨ toCheck s = []) → t.lad.adm = .opening ∧ t.lad.sby = s.lad.sby ∧ t.lad.rampNext = s.clk.now + us 10))
    ∧ (s.clk.pstate = .run → s.lad.adm = .opening → outOrRetired s = true → s.lad.oos = false → s.lad.freezeAt = none → s.sup.holdup = false →
      ∃ t, exec .admission s = .next t ∧ t.lad.adm = .ramp ∧ t.lad.sby = false ∧ t.lad.rampV = 0 ∧ s.lad.rampNext ≤ t.clk.now
        ∧ t.clk.now + us (s.parN 0x0309) ≤ t.lad.rampNext ∧ t.lad.levels = s.lad.levels)
    ∧ (s.clk.pstate = .run → s.lad.adm = .opening →
      (outOrRetired s = false ∨ s.lad.oos = true ∨ s.lad.freezeAt ≠ none ∨ s.sup.holdup = true) →
      ∃ t, exec .admission s = .next t ∧ t.lad.adm = .out ∧ t.lad.sby = s.lad.sby ∧ t.lad.levels = s.lad.levels)
    ∧ (s.clk.pstate = .run → s.lad.adm ≠ .opening → mayStart s = false → exec .admission s = .next s)
    ∧ (s.clk.pstate = .run → s.lad.adm = .ramp → s.lad.freezeAt = none →
      ∃ t, exec .startRampStep s = .next t ∧ t.lad.rampV = minRat (rampGoal t) (s.lad.rampV + rampRise t)
        ∧ (t.lad.adm = .admitted ↔ t.lad.rampV = rampGoal t) ∧ (t.lad.adm = .admitted ∨ t.lad.adm = .ramp)
        ∧ t.lad.levels = s.lad.levels ∧ t.lad.sby = s.lad.sby)
    ∧ (∀ ma mv : Int, s.lad.adm = .ramp → s.lad.abortRef + (s.parN 0x030A : Rat) < absRat ((ma : Rat) / 1000) →
      (mv : Rat) / 1000 < rampNow s / 2 →
      ∃ t, exec (.startAbort ma mv) s = .next t ∧ t.lad.adm = .out ∧ t.lad.startAbort = true
        ∧ t.lad.sby = (s.lad.sby || (s.lad.supplies && bypassAllowed t))
        ∧ (∀ k, k < 16 → present s k = true → (lvl s k).st ≠ .retired → (lvl s k).st ≠ .parked →
            (lvl t k).st = .bypassed ∧ (lvl t k).cause = 0xF ∧ (lvl t k).insGate = false ∧ (lvl t k).bypGate = (lvl s k).bsOk)
        ∧ ∀ k, k < 16 → (present s k = false ∨ (lvl s k).st = .retired ∨ (lvl s k).st = .parked) → lvl t k = lvl s k)
    ∧ (∀ ma mv : Int, (s.lad.adm ≠ .ramp ∨ absRat ((ma : Rat) / 1000) ≤ s.lad.abortRef + (s.parN 0x030A : Rat)
        ∨ rampNow s / 2 ≤ (mv : Rat) / 1000) → exec (.startAbort ma mv) s = .next s)

/-- Cell, shunt, Hall, stack, drop and NTC samples, means, tap tests and corrections. Rests on 06_measurement.md, 12_temperature_and_faults.md. -/
def Obligations.SamplesFormTheirWordsAndMeans : Prop :=
  (∀ s : State, (s.clk.pstate = .run ∨ s.clk.pstate = .watch) → s.flt.injections = [] →
     (streamsHeld s = false → ∀ cells : List CellIn, ∃ t, exec (.cellSample cells) s = .next t ∧ t.cnt = s.cnt ∧ t.host = s.host ∧ t.flt = s.flt
       ∧ t.cfg = s.cfg
       ∧ ∀ (k : Nat) (c : CellIn), k < 16 → present s k = true → cells[k]? = some c →
         let raw := roundRat (trimmed s k c.raw)
         (t.meas.cellAt % sec 1 = 2500 → s.clk.pstate = .run →
           (t.meas.words.getD k CellWord.reset).value = (s.meas.words.getD k CellWord.reset).value
           ∧ (t.meas.words.getD k CellWord.reset).zero = true ∧ t.meas.offset.getD k 0 = raw)
         ∧ ((t.meas.cellAt % sec 1 ≠ 2500 ∨ s.clk.pstate ≠ .run) →
           (t.meas.words.getD k CellWord.reset).zero = false ∧ t.meas.offset.getD k 0 = s.meas.offset.getD k 0
           ∧ (t.meas.words.getD k CellWord.reset).ins = c.ins ∧ (t.meas.words.getD k CellWord.reset).blank = blanked s c
           ∧ let v := raw - s.meas.offset.getD k 0
             (0 ≤ v → v ≤ 262143 → ((t.meas.words.getD k CellWord.reset).value.toNat : Int) = v ∧ (t.meas.words.getD k CellWord.reset).clip = false)
             ∧ (v < 0 → (t.meas.words.getD k CellWord.reset).value = 0 ∧ (t.meas.words.getD k CellWord.reset).clip = true)
             ∧ (262143 < v → (t.meas.words.getD k CellWord.reset).value = 262143 ∧ (t.meas.words.getD k CellWord.reset).clip = true)))
     ∧ (streamsHeld s = true → ∀ cells : List CellIn, ∃ t, exec (.cellSample cells) s = .next t ∧ t.meas.words = s.meas.words
       ∧ t.meas.discarded = s.meas.discarded + 1 ∧ t.lad = s.lad)
     ∧ (streamsHeld s = false → ∀ (nv : Int) (open_ : Bool),
       let v := roundRat (trimmed s 16 nv)
       ∃ t, exec (.shuntSample nv open_) s = .next t ∧ (s.rack.wellhead = false → t.cfg = s.cfg ∧ t.host = s.host)
       ∧ (open_ = true → t.meas.shuntFail = true ∧ (s.meas.shuntFail = false → t.flt.fstat.getLsbD 21 = true))
       ∧ (s.meas.lowRange = true → v.natAbs < 7812500 → s.meas.heldLeft = 0 →
           t.meas.lowRange = true ∧ t.meas.held = false ∧ t.meas.current = (quantise true v).1 / 1000000 / s.meas.shuntR)
       ∧ (s.meas.lowRange = true → 7812500 ≤ v.natAbs → t.meas.lowRange = false ∧ t.meas.held = true ∧ t.meas.current = s.meas.current)
       ∧ (s.meas.lowRange = false → 6250000 ≤ v.natAbs → s.meas.heldLeft = 0 →
           t.meas.lowRange = false ∧ t.meas.held = false ∧ t.meas.current = (quantise false v).1 / 1000000 / s.meas.shuntR))
     ∧ (streamsHeld s = false → ∀ uv : Int, ∃ t, exec (.hallSample uv) s = .next t
       ∧ t.meas.hallA = hallAmps s uv ∧ absRat t.meas.hallA ≤ (s.parN 0x0405 : Rat) ∧ t.meas.current = s.meas.current
       ∧ ((uv < 250000 ∨ 4750000 < uv) → t.meas.hallFail = true ∧ (s.meas.hallFail = false → t.flt.fstat.getLsbD 21 = true))
       ∧ (250000 ≤ uv → uv ≤ 4750000 → t.meas.hallFail = false ∧ t.flt = s.flt ∧ t.lad = s.lad)))
  ∧ (∀ s : State, firmwareRuns s = true → s.flt.injections = [] → s.meas.ntc.length = 24 →
       (∃ t, exec .cellMeans1ms s = .next t ∧ t.meas.means.length ≤ 10 ∧ t.meas.vN1 = List.replicate 16 0 ∧ t.meas.shuntN = 0 ∧ t.meas.hallN = 0
         ∧ (∀ k, k < 16 → 0 < s.meas.vN1.getD k 0 →
             (t.meas.means.getD 0 []).getD k 0 = s.meas.vSum1.getD k 0 / (s.meas.vN1.getD k 0 : Rat))
         ∧ (0 < s.meas.shuntN → 0 < s.meas.hallN → t.meas.disRun = (if currentsDiffer s then s.meas.disRun + 1 else 0)
             ∧ t.meas.disagree = decide (10 ≤ t.meas.disRun)))
       ∧ (∀ (tap : Fin 17) (uv : Int), s.meas.suspects.contains tap.val = true → testsRun s tap.val = true →
         ∃ t, exec (.tapTestsComplete tap uv) s = .next t ∧ t.meas.suspects.contains tap.val = false
           ∧ ((20000 < uv.natAbs ∨ (disagreeing s ≠ [] ∧ s.meas.sumFail = false)) →
               t.meas.tapOpen.getLsbD tap.val = true ∧ t.flt.fstat.getLsbD 22 = true
               ∧ ∀ k ∈ tapLevels s tap.val, k < s.lad.levels.length → (lvl t k).tapPark = true ∧ t.lad.parkMask.getLsbD k = true)
           ∧ (uv.natAbs ≤ 20000 → disagreeing s = [] → t.meas.tapOpen = s.meas.tapOpen ∧ t.flt = s.flt ∧ t.lad.parkMask = s.lad.parkMask)
           ∧ (uv.natAbs ≤ 20000 → disagreeing s ≠ [] → s.meas.sumFail = true → t.meas.tapOpen = s.meas.tapOpen ∧ t.flt.fstat.getLsbD 22 = true
               ∧ ∀ k ∈ disagreeing s, k < 16 → t.lad.parkMask.getLsbD k = true))
       ∧ (∀ (tap : Fin 17) (uv : Int), (s.meas.suspects.contains tap.val = false ∨ testsRun s tap.val = false) →
         exec (.tapTestsComplete tap uv) s = .next s)
       ∧ (∀ uv ma : Int, ∃ t, exec (.stackSample uv ma) s = .next t
         ∧ (s.meas.stackNext = true → s.meas.tapTest = false →
             t.meas.stack = trimmed s 18 uv / 1000000 - (s.parN 0x040A : Rat) * (ma : Rat) / 1000000 ∧ t.meas.ladderOut = s.meas.ladderOut
             ∧ (cellCount s ≠ 0 → t.meas.stack < (cellCount s : Rat) * 3 / 2 → t.chg.removed = true))
         ∧ ((s.meas.stackNext = false ∨ s.meas.tapTest = true) → t.meas.ladderOut = trimmed s 18 uv / 1000000 ∧ t.meas.stack = s.meas.stack
             ∧ t.chg = s.chg))
       ∧ (∀ (mask : BitVec 16) (uv : Int) (k : Nat), k < s.meas.dropInsert.length → k < s.meas.dropBypass.length →
         ((List.range 16).map fun i => (s.meas.dropSlot + i) % 16).find? (fun k => present s k && !mask.getLsbD k) = some k →
         ∃ t, exec (.switchDropSlot mask uv) s = .next t ∧ t.meas.dropSlot = (k + 1) % 16 ∧ t.lad = s.lad
           ∧ (if insertConducts t k then t.meas.dropInsert else t.meas.dropBypass).getD k 0 = dropMv s uv
           ∧ absRat (dropMv s uv) ≤ 250)
       ∧ (∀ ppm : Nat, let j := s.meas.ntcSlot - 1
         let r : Rat := (roundRat (trimmed s 20 (ppm : Rat) * 65536 / 1000000) : Rat) / 65536
         ∃ t, exec (.ntcSlot ppm) s = .next t ∧ t.meas.ntcSlot = (s.meas.ntcSlot + 1) % 25
         ∧ (s.meas.ntcSlot = 0 → 0 < r → r < 1 → t.meas.tref = r)
         ∧ (1 ≤ s.meas.ntcSlot → s.meas.ntcSlot ≤ 24 → 2 / 100 ≤ r → r ≤ 98 / 100 →
             (ntcRec t j).temp = some (ntcTemp s r) ∧ (ntcRec t j).bad = 0)
         ∧ (1 ≤ s.meas.ntcSlot → s.meas.ntcSlot ≤ 24 → (r < 2 / 100 ∨ 98 / 100 < r) →
             (ntcRec t j).temp = (ntcRec s j).temp ∧ (ntcRec t j).bad = (ntcRec s j).bad + 1
             ∧ ((ntcRec s j).faulted = false → ntcUsed s j = true → (3 ≤ (ntcRec s j).bad + 1 ∨ ntcCell s j = none) →
                 (ntcRec t j).faulted = true ∧ t.flt.fstat.getLsbD 20 = true)
             ∧ (ntcUsed s j = false → (ntcRec t j).faulted = (ntcRec s j).faulted ∧ t.flt = s.flt)))
       ∧ (∀ rcPs : Nat, s.clk.pstate = .run → ∃ t, exec (.correctionUpdate10ms rcPs) s = .next t ∧ t.clk.now % ms 10 = 0 ∧ s.clk.now < t.clk.now
         ∧ t.clk.rcTrim = (if nearRcValid s = [] then s.clk.rcTrim
             else Config.rcTrim (sumRat (nearRcValid s) / ((nearRcValid s).length : Rat)))
         ∧ t.meas.refCorr = (if powerValid s = [] then s.meas.refCorr
             else Config.refCorrection (sumRat ((powerValid s).map fun (c : Int) => (c : Rat)) / ((powerValid s).length : Rat)))
         ∧ (s.clk.pll = true → 0 < rcPs → t.clk.rcPs = rcPs)
         ∧ t.meas.shuntR = (s.parN 0x0403 : Rat) / 100000000 * (1 + (s.par 0x0404 : Rat) / 1000000 * (t.meas.shuntT - 25))))

/-- Charge is counted per interval and committed, and anchors complete or end. Rests on 07_charge_and_capacity.md, 15_storage_and_recorder.md. -/
def Obligations.ChargeIsCountedAndAnchored : Prop :=
  (∀ (s : State) (tins : List Nat),
     (∀ a : Rat, counting s = true → s.clk.coarseOn = false → s.chg.lastI = some a → s.chg.heldTins = [] → s.meas.held = false →
       s.chg.cells.length = 16 →
       ∃ t, exec (.integrationInterval tins) s = .next t
         ∧ t.chg.sNet = (satSigned (s.chg.sNet + chargeOf ((a + stringA s) / 2) 1600)).1
         ∧ t.chg.lastI = some (stringA s)
         ∧ ((∃ k, k < 16 ∧ present s k = true ∧ 0 < tins.getD k 0) → t.chg.bNet = s.chg.bNet)
         ∧ ((∀ k, k < 16 → present s k = true → tins.getD k 0 = 0) →
             t.chg.bNet = (satSigned (s.chg.bNet + chargeOf ((a + stringA s) / 2) 1600)).1)
         ∧ (∀ k, k < 16 → present s k = true → let q := chargeOf ((a + stringA s) / 2) (min 1600 (tins.getD k 0))
             (acc t k).qout = (satGross ((acc s k).qout + q.toNat)).1 ∧ (acc t k).qin = (satGross ((acc s k).qin + (-q).toNat)).1)
         ∧ t.clk = s.clk ∧ t.lad = s.lad ∧ t.flt = s.flt)
     ∧ (counting s = false → ∃ t, exec (.integrationInterval tins) s = .next t ∧ t.chg.sNet = s.chg.sNet ∧ t.chg.bNet = s.chg.bNet
         ∧ t.chg.cells = s.chg.cells ∧ t.chg.lastI = none)
     ∧ (firmwareRuns s = true → ∃ t, exec .socUpdate s = .next t ∧ ∀ k, k < s.chg.cells.length → (acc t k).soc = socOf (acc s k) ∧ (acc t k).qin = (acc s k).qin
         ∧ (acc t k).qout = (acc s k).qout)
     ∧ (s.clk.pstate = .run → inWarmReset s = false → canWrite s = true → hasRoom s (itemBytes s (counterGroup false s)) = true →
       ∃ t g rest, exec .counterCommit s = .next t ∧ (activeRegion t).groups = (if s.nv.empty then [] else (activeRegion s).groups) ++ g :: rest
         ∧ (s.nv.owed = JItems.reset → rest = []) ∧ g.items.counters = some (counterItems t) ∧ t.chg.commitAt = t.clk.now + sec 10 ∧ s.chg.commitAt ≤ t.clk.now ∧ t.chg.cells = s.chg.cells)
     ∧ (s.clk.pstate = .run → inWarmReset s = false → canWrite s = false →
       ∃ t, exec .counterCommit s = .next t ∧ activeRegion t = activeRegion s ∧ t.chg.commitAt = t.clk.now + sec 10 ∧ t.flt = s.flt))
  ∧ (∀ (s : State) (k : Lvl), s.chg.cells.length = 16 →
       (∀ h : Nat, s.clk.pstate = .run → inWarmReset s = false → (acc s k.val).running ≠ .none → (acc s k.val).holdSince = some h →
         reversed s (acc s k.val) = false →
         ∃ t, exec (.anchorHoldExpiry k) s = .next t ∧ (acc t k.val).running = .none ∧ (acc t k.val).taper = none
           ∧ ((acc s k.val).running = .full → (acc t k.val).full = ⟨(acc s k.val).q, t.clk.ring, true⟩ ∧ (acc t k.val).empty = (acc s k.val).empty)
           ∧ ((acc s k.val).running = .empty → (acc t k.val).empty = ⟨(acc s k.val).q, t.clk.ring, true⟩ ∧ (acc t k.val).full = (acc s k.val).full)
           ∧ (acc t k.val).spanOpen = true ∧ (acc t k.val).spanQ = (acc s k.val).q ∧ (acc t k.val).spanFull = decide ((acc s k.val).running = .full)
           ∧ (s.chg.tokenLost = true → (acc t k.val).provisional = some (acc s k.val).running)
           ∧ t.chg.sNet = s.chg.sNet ∧ t.lad = s.lad)
       ∧ (∀ h : Nat, s.clk.pstate = .run → inWarmReset s = false → (acc s k.val).running ≠ .none → (acc s k.val).holdSince = some h →
         reversed s (acc s k.val) = true →
         ∃ t, exec (.anchorHoldExpiry k) s = .next t ∧ acc t k.val = (acc s k.val).endAnchor ∧ ∀ j, j ≠ k.val → acc t j = acc s j)
       ∧ ((acc s k.val).running ≠ .none → reversed s (acc s k.val) = true →
         ∃ t, exec (.anchorEnd k) s = .next t ∧ acc t k.val = (acc s k.val).endAnchor ∧ (∀ j, j ≠ k.val → acc t j = acc s j) ∧ t.clk = s.clk)
       ∧ (∀ h : Nat, (acc s k.val).running ≠ .none → reversed s (acc s k.val) = false → (acc s k.val).lowSince = some h →
         ∃ t, exec (.anchorEnd k) s = .next t ∧ acc t k.val = (acc s k.val).endAnchor ∧ (∀ j, j ≠ k.val → acc t j = acc s j)
           ∧ h + sec 10 ≤ t.clk.now)
       ∧ ((acc s k.val).running = .none → exec (.anchorEnd k) s = .next s))

/-- The pack token: reads, misses, attempts and the transactions of two-wire bus A. Rests on 07_charge_and_capacity.md,
16_security_lifecycle_update.md, 17_local_buses.md. -/
def Obligations.TheTokenIsReadAndAuthenticated : Prop :=
  (∀ s : State, firmwareRuns s = true → s.host.gates.getD 1 0 = 0 → s.busA.sclStuck = false →
     (∀ id : BitVec 64, s.chg.attempt = false →
       ∃ t, exec (.tokenRead (some id)) s = .next t ∧ t.chg.misses = 0 ∧ t.chg.cells = s.chg.cells ∧ t.chg.tokenLost = s.chg.tokenLost
         ∧ (t.chg.attempt = true ↔ (s.chg.tokenLost = true ∨ s.chg.bound = false ∨ id ≠ s.chg.packId ∨ (s.chg.removed = true ∧ s.chg.attemptDue = true)))
         ∧ (t.chg.attempt = true → t.busA.held = true ∧ t.chg.challenge.length = 32))
     ∧ (s.chg.attempt = false → s.chg.removed = false →
       ∃ t, exec (.tokenRead none) s = .next t ∧ t.chg.misses = s.chg.misses + 1 ∧ t.chg.attempt = false ∧ t.chg.cells = s.chg.cells
         ∧ (1 ≤ s.chg.misses → t.chg.tokenLost = true ∧ (s.chg.tokenLost = false → t.flt.fstat.getLsbD 6 = true))
         ∧ (s.chg.misses = 0 → t.chg.tokenLost = s.chg.tokenLost ∧ t.flt = s.flt))
     ∧ (∀ (id : BitVec 64) (resp : List Byte), s.chg.attempt = true → expectedResponse s id = some (fitBytes 16 resp) →
       ∃ t, exec (.packAuthAttempt (some (id, resp))) s = .next t ∧ t.chg.token = .valid ∧ t.chg.tokenLost = false ∧ t.chg.misses = 0
         ∧ t.chg.attempt = false ∧ t.busA.held = false ∧ t.chg.removed = false ∧ t.clk.authDone = true
         ∧ ((s.chg.bound = false ∨ id ≠ s.chg.packId) → t.chg.packId = id ∧ t.chg.bound = true
             ∧ ∀ k, k < s.chg.cells.length → (acc t k).full.valid = false ∧ (acc t k).empty.valid = false ∧ (acc t k).cap = (s.parN 0x050B : Rat)
               ∧ (acc t k).qb = (acc t k).q))
     ∧ (∀ (id : BitVec 64) (resp : List Byte), s.chg.attempt = true → expectedResponse s id ≠ some (fitBytes 16 resp) →
       ∃ t, exec (.packAuthAttempt (some (id, resp))) s = .next t ∧ t.chg.token = .invalid ∧ t.chg.attempt = false ∧ t.busA.held = false
         ∧ t.flt.fstat.getLsbD 6 = true ∧ (∀ k, k < s.chg.cells.length → (acc t k).full.valid = false ∧ (acc t k).empty.valid = false)
         ∧ (s.clk.authDone = true → t.flt.fstat.getLsbD 31 = true ∧ t.lad.oos = true ∧ t.lad.parkRun = .invalidPack)
         ∧ (s.clk.authDone = false → t.chg.bound = false))
     ∧ (s.chg.attempt = true →
       ∃ t, exec (.packAuthAttempt none) s = .next t ∧ t.chg.attempt = false ∧ t.busA.held = false ∧ t.chg.misses = s.chg.misses + 1
         ∧ t.chg.cells = s.chg.cells))
  ∧ (∀ s : State, busARuns s = true →
       (∀ data : List Byte, ∃ t, exec (.busATransaction (.answered data)) s = .next t ∧ t.busA.answers = [(true, data)]
         ∧ t.busA.queue = s.busA.queue.drop 1 ∧ t.busA.losses = 0 ∧ t.chg = s.chg ∧ t.cnt = s.cnt)
       ∧ (s.chg.attempt = false → ∃ t, exec (.busATransaction .notAcknowledged) s = .next t ∧ t.busA.answers = [(false, [])]
         ∧ t.busA.queue = s.busA.queue.drop 1 ∧ t.chg = s.chg ∧ t.cnt.counters = s.cnt.counters.modify 81 (· + 1))
       ∧ (s.busA.losses < 3 → ∃ t, exec (.busATransaction .arbitrationLost) s = .next t ∧ t.busA.losses = s.busA.losses + 1
         ∧ t.busA.queue = s.busA.queue ∧ t.busA.answers = s.busA.answers ∧ t.cnt.counters = s.cnt.counters.modify 79 (· + 1))
       ∧ (3 ≤ s.busA.losses → s.chg.attempt = false → ∃ t, exec (.busATransaction .arbitrationLost) s = .next t ∧ t.busA.losses = 0
         ∧ t.busA.queue = s.busA.queue.drop 1 ∧ t.busA.answers = [(false, [])] ∧ t.cnt.counters = s.cnt.counters.modify 79 (· + 1))
       ∧ (s.par 0x0123 = 1 → s.chg.attempt = false → ∃ t, exec .busATimeout s = .next t ∧ t.busA.answers = [(false, [])]
         ∧ t.busA.sclStuck = false ∧ t.busA.queue = s.busA.queue.drop 1 ∧ t.cnt.counters = s.cnt.counters.modify 80 (· + 1))
       ∧ (s.par 0x0123 ≠ 1 → ∃ t, exec .busATimeout s = .next t ∧ t.busA.sclStuck = true ∧ t.busA.queue = s.busA.queue ∧ t.cnt = s.cnt)
       ∧ (s.chg.attempt = true → ∃ t, exec (.tokenPoll (some 0x02)) s = .next t ∧ t.chg.attempt = true ∧ t.busA.polls = s.busA.polls + 1
         ∧ t.clk.now = s.clk.now + us 200)
       ∧ (∀ b : Byte, s.chg.attempt = true → b ≠ 0x02 → (b = 0x03 ∨ 14 ≤ s.busA.polls) →
         ∃ t, exec (.tokenPoll (some b)) s = .next t ∧ t.chg.attempt = false ∧ t.busA.held = false ∧ t.chg.misses = s.chg.misses + 1)
       ∧ (s.chg.attempt = true → ∃ t, exec (.tokenPoll none) s = .next t ∧ t.chg.attempt = false ∧ t.busA.held = false
         ∧ t.busA.queue = s.busA.queue.drop 1)
       ∧ (s.chg.attempt = false → ∀ b, exec (.tokenPoll b) s = .next s))

/-- The engine steps, completes, overruns, restarts, resamples, learns, measures impedance and throttles. Rests on 08_model_engine.md. -/
def Obligations.TheEngineStepsAndAdapts : Prop :=
  (∀ s : State, s.eng.tiles.length = 16 → s.flt.sources.length = 32 →
     let tile := fun (u : State) (i : Nat) => u.eng.tiles.getD i Tile.reset
     (s.clk.pstate = .run →
       ∃ t, exec .engineStep s = .next t ∧ t.eng.lastStep = t.clk.ring ∧ t.lad = s.lad ∧ t.chg = s.chg
         ∧ (s.clk.phaseErr = 0 → 0 < stepPeriod s → t.clk.ring % stepPeriod s = 0 ∧ s.clk.ring ≤ t.clk.ring ∧ s.eng.lastStep < t.clk.ring)
         ∧ (settingsWait s = false → engineIdle s = false → s.eng.tiles.any (·.stepping) = false →
             t.eng.qStep = List.replicate 16 0 ∧ t.eng.vStep = List.replicate 16 []
             ∧ (s.eng.skipNext = true → t.eng.skipNext = false ∧ ∀ r ∈ t.eng.tiles, r.stepping = false)
             ∧ (s.eng.skipNext = false → s.flt.injections = [] → ∀ i ∈ steppingTiles s, ∀ k, (tile s i).cell = some k →
                 (tile t i).stepping = true ∧ (tile t i).inT = cellTemp s k.val ∧ (tile t i).inV = s.eng.vStep.getD k.val []
                 ∧ (tile t i).inI = ampsOver (s.eng.qStep.getD k.val 0) (stepPeriod s) ∧ (tile t i).inStr = ampsOver s.eng.cStep (stepPeriod s))))
     ∧ (∀ i : Fin 16, s.clk.pstate = .run → (tile s i.val).stepping = true → ((tile s i.val).warmup = true ∨ (tile s i.val).overSince = none) →
       let after := { tile s i.val with members := (tile s i.val).members.map (stepMember s (tile s i.val)) }
       ∃ t, exec (.engineStepComplete i) s = .next t ∧ (tile t i.val).stepping = false ∧ (tile t i.val).front = reduced s after
         ∧ (tile t i.val).back = (tile s i.val).front ∧ (tile t i.val).swapAt = some s.clk.ring ∧ (tile t i.val).front.ready = true
         ∧ 0 ≤ (tile t i.val).front.limCh ∧ 0 ≤ (tile t i.val).front.limDis
         ∧ t.cnt.counters.getD (24 + i.val) 0 = (s.cnt.counters.modify (24 + i.val) (· + (tile s i.val).members.length)).getD (24 + i.val) 0
         ∧ (∀ j, j ≠ i.val → tile t j = tile s j) ∧ t.clk = s.clk ∧ t.lad = s.lad)
     ∧ (∀ (i : Fin 16) (a : Nat), s.clk.pstate = .run → (tile s i.val).stepping = true → (tile s i.val).warmup = false → (tile s i.val).overSince = some a →
         a + sec 1 ≤ s.clk.now →
       ∃ t, exec (.engineStepComplete i) s = .next t ∧ (((tile t i.val).front.ready = true ∧ (tile t i.val).overSince = none)
         ∨ (t.flt.fstat.getLsbD 16 = true ∧ (tile t i.val).collapse = true ∧ (tile t i.val).front.ready = false)))
     ∧ (∀ i : Fin 16, s.clk.pstate ≠ .run ∨ (tile s i.val).stepping = false → exec (.engineStepComplete i) s = .next s)
     ∧ (s.clk.pstate = .run → s.eng.tiles.any (·.stepping) = true → s.eng.overrunRun < 2 →
       ∃ t, exec .engineOverrun s = .next t ∧ t.eng.skipNext = true ∧ t.eng.overrunRun = s.eng.overrunRun + 1 ∧ t.flt.fstat.getLsbD 16 = true
         ∧ t.eng.stopped = s.eng.stopped ∧ t.cnt.counters.getD 40 0 = (s.cnt.counters.modify 40 (· + 1)).getD 40 0)
     ∧ (s.clk.pstate = .run → s.eng.tiles.any (·.stepping) = true → 2 ≤ s.eng.overrunRun →
       ∃ t, exec .engineOverrun s = .next t ∧ t.eng.stopped = true ∧ t.eng.restartAt = t.clk.now + sec 1 ∧ t.flt.fstat.getLsbD 16 = true
         ∧ (∀ r ∈ t.eng.tiles, r.stepping = false) ∧ ∀ k, onFallback t k = true)
     ∧ (∀ i : Fin 16, s.clk.pstate = .run → (tile s i.val).warmup = true → engineIdle s = false → i.val ∈ steppingTiles s →
       ∃ t, exec (.warmupTimeout i) s = .next t ∧ t.flt.fstat.getLsbD 16 = true ∧ (tile s i.val).warmAt + sec 30 ≤ t.clk.now
         ∧ (tile t i.val).collapse = true ∧ (tile t i.val).front.ready = false)
     ∧ (s.eng.stopped = true →
       ∃ t, exec .engineRestart s = .next t ∧ t.eng.stopped = false ∧ s.eng.restartAt ≤ t.clk.now ∧ ∀ r ∈ t.eng.tiles, r.warmup = true))
  ∧ (∀ s : State, s.eng.tiles.length = 16 →
       let tile := fun (u : State) (i : Nat) => u.eng.tiles.getD i Tile.reset
       (s.clk.pstate = .run → engineIdle s = false →
         ∃ t, exec .ensembleResample s = .next t ∧ t.lad = s.lad
           ∧ (∀ i ∈ steppingTiles s, (tile t i).members.length = (tile s i).members.length
               ∧ ∀ m ∈ (tile t i).members, m.weight = 1 / ((tile s i).members.length : Rat))
           ∧ ∀ i, i < 16 → i ∉ steppingTiles s → tile t i = tile s i)
       ∧ (s.clk.pstate = .run →
         ∃ t, exec .learnedSetWrite s = .next t ∧ t.lad = s.lad ∧ t.chg = s.chg ∧ s.eng.learnedAt ≤ t.clk.now
           ∧ t.eng.learnedAt = t.clk.now + sec 3600
           ∧ (canWrite s = false → t.eng.learned = s.eng.learned)
           ∧ (canWrite s = true → ∀ k, k < s.eng.learned.length → (t.eng.learned.getD k none =
               if engineOn s k && (tileRec s k).front.ready then some (medianPars (tileRec s k)) else s.eng.learned.getD k none)))
       ∧ (s.clk.pstate ≠ .run → exec .learnedSetWrite s = .next s)
       ∧ (s.clk.pstate ≠ .run → exec .throttleChange s = .next s ∧ ∀ (k : Lvl) (j : Fin 32), exec (.impedanceWindowEnd k j) s = .next s)
       ∧ (∀ (k : Lvl) (j : Fin 32) (i : Nat), s.clk.pstate = .run → tileOf s k.val = some i → (tile s i).points.length = 32 →
         let old := (tile s i).points.getD j.val Imp.reset
         let stored := fun (u : State) => (tile u i).points.getD j.val Imp.reset
         (old.subs.length < 4 → exec (.impedanceWindowEnd k j) s = .next s)
         ∧ (4 ≤ old.subs.length → (old.coherence * 100 < (s.parN 0x060B : Rat) ∨ old.powers.2 = 0) →
             ∃ t, exec (.impedanceWindowEnd k j) s = .next t ∧ stored t = old.reopen ∧ t.cnt = s.cnt ∧ t.lad = s.lad)
         ∧ (4 ≤ old.subs.length → (s.parN 0x060B : Rat) ≤ old.coherence * 100 → old.powers.2 ≠ 0 →
             ∃ t, exec (.impedanceWindowEnd k j) s = .next t ∧ (stored t).re = old.cross.1 / old.powers.2
               ∧ (stored t).im = old.cross.2 / old.powers.2 ∧ (stored t).stamp = some s.clk.now ∧ (stored t).subs = [] ∧ t.lad = s.lad
               ∧ t.cnt.counters = s.cnt.counters.modify 94 (· + 1)))
       ∧ (s.clk.pstate = .run → ∃ t, exec .ditherChip s = .next t ∧ t.eng = { s.eng with chip := (s.eng.chip + 1) % 255 } ∧ t.lad = s.lad
         ∧ (s.clk.phaseErr = 0 → t.clk.ring % ms 50 = 0 ∧ s.clk.ring < t.clk.ring))
       ∧ (s.clk.pstate = .run → ∃ t, exec .throttleChange s = .next t ∧ t.eng.throttle = t.eng.throttleWant ∧ t.lad = s.lad
         ∧ (s.flt.ctrlShut.above = true → t.eng.throttle = 3)
         ∧ (t.eng.throttle ≠ s.eng.throttle → t.eng.throttle = 3 → ∀ r ∈ t.eng.tiles, r.stepping = false)
         ∧ (t.eng.throttle ≠ s.eng.throttle → t.eng.throttle ≠ 3 → ∀ r ∈ t.eng.tiles, r.cell ≠ none → r.members.length = membersAt t t.eng.throttle)
         ∧ (t.eng.throttle ≠ s.eng.throttle → t.cnt.counters = s.cnt.counters.modify 91 (· + 1))))

/-- The Wellhead runs its cycle; STATUS is sent, and taken into its row. Rests on 09_rack_coordination.md. -/
def Obligations.TheWellheadCyclesOnStatus : Prop :=
  (∀ s : State,
     (cycling s = true →
       ∃ t, exec .wellheadCycle s = .next t ∧ t.rack.iRef = clampRat (rawRef t) (-t.rack.weirCh) t.rack.weirDis
         ∧ t.rack.obeyed = s.rack.epoch ∧ t.rack.everObeyed = true ∧ t.rack.leader = position s ∧ t.rack.wellhead = true
         ∧ t.mod.nextCmd = some (commandedV t t.rack.xLast) ∧ t.mod.lastCmdAt = t.clk.now
         ∧ (s.clk.phaseErr = 0 → t.clk.ring = 10000 * t.mod.nextFor - 8000 ∧ s.clk.ring ≤ t.clk.ring ∧ 1 ≤ t.mod.nextFor)
         ∧ t.lad.levels = s.lad.levels ∧ t.cfg = s.cfg)
     ∧ (cycling s = false → (s.rack.wellhead = false ∨ mayHold s = true) → exec .wellheadCycle s = .next s)
     ∧ (s.rack.wellhead = true → mayHold s = false →
       ∃ t, exec .wellheadCycle s = .next t ∧ t.rack.wellhead = false ∧ t.rack.handAt = none ∧ t.lad = s.lad ∧ t.mod = s.mod ∧ t.clk = s.clk)
     ∧ (∀ at_ : Nat, s.rack.sagClear = some at_ → s.rack.wellhead = true → s.rack.busHu = true →
       ∃ t, exec .busHoldupExit s = .next t ∧ t.rack.busHu = false ∧ at_ + ms 100 ≤ t.clk.now ∧ t.rack.xLast = s.rack.xLast
         ∧ t.rack.rebase = true ∧ t.lad = s.lad))
  ∧ (∀ s : State,
       (s.clk.pstate = .run → s.clk.ringKnown = true → position s ≠ 0 → s.rack.wellhead = false →
         (∃ t, exec .statusSend s = .next t ∧ t.rack = s.rack ∧ t.lad = s.lad ∧ t.cnt.counters = s.cnt.counters.modify 53 (· + 1)
           ∧ (s.clk.phaseErr = 0 → t.clk.ring % 200000 = 0 ∧ s.clk.ring < t.clk.ring))
         ∧ (∃ t, exec .statusUnscheduled s = .next t ∧ t.rack = s.rack ∧ t.clk = s.clk ∧ t.lad = s.lad
           ∧ t.cnt.counters = s.cnt.counters.modify 53 (· + 1)
           ∧ t.mod = { s.mod with vlo := fieldAt (statusBody s true) 8 2, vhi := fieldAt (statusBody s true) 10 2 }))
       ∧ (s.clk.pstate = .run → s.clk.ringKnown = true → 1 ≤ position s → position s ≤ s.rack.rows.length → s.rack.wellhead = true →
         (∃ t, exec .statusSend s = .next t ∧ (row t (position s)).seen = some t.clk.now ∧ t.ring = s.ring ∧ t.lad = s.lad)
         ∧ (∃ t, exec .statusUnscheduled s = .next t ∧ (row t (position s)).seen = some s.clk.now ∧ t.clk = s.clk ∧ t.ring = s.ring))
       ∧ (∀ (p : Port) (f : Frame), Applies p f s → f.ftype = 3 → s.rack.wellhead = true →
         let h := fieldAt f.body 0 1
         1 ≤ h → h ≤ s.rack.rows.length →
         ∃ t, exec (.statusReceived p f) s = .next t ∧ t.clk.now = (endReceipt p f s).clk.now ∧ (row t h).seen = some t.clk.now ∧ (row t h).sflags = BitVec.ofNat 16 (fieldAt f.body 1 2)
           ∧ ((row t h).flag 4 = true → (row t h).vlo = BitVec.ofNat 16 (fieldAt f.body 8 2) ∧ (row t h).vhi = BitVec.ofNat 16 (fieldAt f.body 10 2)
               ∧ t.rack.succ = successors t)
           ∧ ((row t h).flag 4 = false → bvBytes 8 (BitVec.ofNat 64 (fieldAt f.body 12 8)) = digestOf s.cfg.params →
               (row t h).mismatch = false)
           ∧ t.lad.levels = s.lad.levels ∧ t.mod = s.mod)
       ∧ (∀ (p : Port) (f : Frame), s.rack.wellhead = false ∨ f.ftype ≠ 3 → exec (.statusReceived p f) s = .next s))

/-- Loss of the leader, takeovers by succession and rank, handover, lease and checkpoint. Rests on 09_rack_coordination.md. -/
def Obligations.LeadershipChangesHands : Prop :=
  ∀ s : State,
    (s.clk.pstate = .run → s.rack.wellhead = false → s.rack.everObeyed = true → s.rack.lost = false →
      ∃ t, exec .leaderLoss s = .next t ∧ t.rack.lost = true ∧ t.rack.lostAt = t.clk.now
        ∧ max s.rack.runAt s.mod.lastCmdAt + us 50 ≤ t.clk.now ∧ t.rack.lossOpen = true
        ∧ t.rack.votedYes = none ∧ t.flt.fstat.getLsbD 17 = true ∧ t.rack.wellhead = false ∧ t.lad = s.lad)
    ∧ (∀ r : Nat, successorRank s = some r → s.rack.wellhead = false → s.rack.lossOpen = true → mayLead s = true →
      s.clk.now ≤ s.rack.lostAt + slotEnd r →
      ∃ t, exec .successorTakeover s = .next t ∧ t.rack.wellhead = true ∧ t.rack.epoch = s.rack.highEpoch + BitVec.ofNat 32 r
        ∧ s.rack.lostAt + slotOf r ≤ t.clk.now ∧ t.rack.lost = false ∧ t.rack.xLast = s.rack.xLast
        ∧ (∀ c, s.rack.ckpt = some c → t.clk.now < s.rack.ckptRecv + ms 200 →
            t.rack.vd = c.vd ∧ t.rack.rd = some c.rd ∧ t.rack.rpath = c.rpath))
    ∧ (∀ r : Nat, leaderRank s = some r → s.rack.wellhead = false → mayLead s = true → (s.rack.heardCmd = false ∨ s.rack.lost = true) →
      ∃ t, exec .rankTakeover s = .next t ∧ t.rack.wellhead = true ∧ t.rack.epoch = s.rack.highEpoch + 3 + BitVec.ofNat 32 r
        ∧ (if s.rack.heardCmd then s.mod.lastCmdAt else s.rack.runAt) + us 1200 + ms r ≤ t.clk.now ∧ t.clk.ringKnown = true
        ∧ (s.clk.ringKnown = false → s.clk.high + sec 1 ≤ t.clk.ring))
    ∧ (∀ p : Nat, s.rack.wellhead = true → s.rack.handAt = some p →
      ∃ t, exec .plannedHandover s = .next t ∧ t.rack.wellhead = false ∧ t.rack.handAt = none ∧ t.rack.leader = s.rack.succ.headD 0
        ∧ t.rack.handover = none ∧ (∀ r ∈ t.host.running, s.rack.handover = some r.req → r.done = true))
    ∧ (∀ (c : Checkpoint) (p : Nat), s.rack.wellhead = false → s.rack.handAt = none → mayLead s = true → s.rack.ckpt = some c →
      c.boundary = some p → holdsCkpt (advanceRing (10000 * p) s) = true → c.succ.head? = some (position s) →
      ∃ t, exec .plannedHandover s = .next t ∧ t.rack.wellhead = true ∧ t.rack.epoch = s.rack.highEpoch + 1 ∧ t.rack.vd = c.vd
        ∧ (s.clk.phaseErr = 0 → s.clk.ring ≤ 10000 * p → t.clk.ring = 10000 * p))
    ∧ (s.rack.wellhead = true →
      (∃ t, exec .leaseExpiry s = .next t ∧ t.rack.wellhead = false ∧ s.rack.leaseUntil ≤ t.clk.now ∧ t.lad = s.lad ∧ t.mod = s.mod)
      ∧ (onRing s = true → ∃ t, exec .checkpointSend s = .next t ∧ s.rack.ckptAt ≤ t.clk.now ∧ t.rack.ckptAt = t.clk.now + ms 100
          ∧ t.rack.wellhead = true ∧ t.lad = s.lad))
    ∧ (s.rack.ckpt ≠ none → ∃ t, exec .checkpointExpiry s = .next t ∧ t.rack.ckpt = none ∧ s.rack.ckptRecv + ms 200 ≤ t.clk.now
        ∧ t.rack.wellhead = s.rack.wellhead)

/-- A staged rack set is held, ordered, applied at its time, or discarded. Rests on 09_rack_coordination.md, 15_storage_and_recorder.md. -/
def Obligations.StagedValuesAreAppliedOrDiscarded : Prop :=
  ∀ s : State,
    (∀ (src : Byte) (records : List Byte), onRing s = true →
      let r := stageRecords s.cfg.params (fittedNow s) (filesNow s) true 128 61 records [] 0
      (r.2.2.isSome = true → ∃ t, exec (.rackStageReceived src records) s = .next t ∧ t.cfg = s.cfg ∧ t.nv = s.nv)
      ∧ (s.cfg.order.isSome = true → ∃ t, exec (.rackStageReceived src records) s = .next t ∧ t.cfg = s.cfg ∧ t.nv = s.nv)
      ∧ (r.2.2 = none → s.cfg.order = none → canWrite s = true →
        hasRoom s (itemBytes s { JItems.reset with pending := some (r.1, 0), order := some (0, 0) }) = true →
        ∃ t, exec (.rackStageReceived src records) s = .next t ∧ t.cfg.pending = r.1 ∧ t.cfg.hasPending = true ∧ t.cfg.order = none
          ∧ t.cfg.pendingAt = s.clk.now ∧ t.cfg.params = s.cfg.params ∧ t.cfg.effective = s.cfg.effective ∧ t.lad = s.lad)
      ∧ (r.2.2 = none → s.cfg.order = none →
        (canWrite s = false ∨ hasRoom s (itemBytes s { JItems.reset with pending := some (r.1, 0), order := some (0, 0) }) = false) →
        ∃ t, exec (.rackStageReceived src records) s = .next t ∧ t.cfg = s.cfg ∧ t.nv.regA = s.nv.regA ∧ t.nv.regB = s.nv.regB
          ∧ t.flt.fstat.getLsbD 13 = true))
    ∧ (s.rack.staging = true →
      ∃ t, exec .rackStageTimeout s = .next t ∧ t.rack.staging = false ∧ t.rack.staged = false ∧ t.rack.stage = [] ∧ t.cfg.hasPending = false
        ∧ t.cfg.params = s.cfg.params ∧ s.rack.stageAt + ms 50 ≤ t.clk.now
        ∧ ∀ r ∈ t.host.running, s.rack.stageReq = some r.req → r.done = true)
    ∧ (∀ (gen : BitVec 32) (tc : Nat), s.cfg.hasPending = true →
      ∃ t, exec (.rackOrderReceived gen tc) s = .next t ∧ t.cfg = { s.cfg with order := some (gen, tc) } ∧ t.clk = s.clk ∧ t.lad = s.lad)
    ∧ (∀ (gen : BitVec 32) (tc : Nat), s.cfg.hasPending = false → exec (.rackOrderReceived gen tc) s = .next s)
    ∧ (∀ (g : BitVec 32) (tc : Nat), s.cfg.order = some (g, tc) → s.cfg.hasPending = true → mayCommit s (committedItems s) = true →
      ∃ t, exec .rackCommitApply s = .next t ∧ t.cfg.params = overlay s.cfg.params s.cfg.pending ∧ t.cfg.gen = g ∧ t.cfg.hasPending = false
        ∧ t.cfg.pending = [] ∧ t.cfg.order = none ∧ t.lad.levels = s.lad.levels ∧ t.rack.confirm = some (g, tc)
        ∧ (s.rack.wellhead = false → ∀ r ∈ t.host.running, s.rack.commitReq = some r.req → r.done = true)
        ∧ (s.cfg.params.Pairwise (fun a b => a.id < b.id) → ∀ id, rackWide id = true → paramIn t.cfg.effective id = paramIn t.cfg.params id)
        ∧ (s.clk.ringKnown = true → s.clk.phaseErr = 0 → s.clk.ring ≤ tc → t.clk.ring = tc))
    ∧ (∀ (g : BitVec 32) (tc : Nat), s.cfg.order = some (g, tc) → s.cfg.hasPending = true → mayCommit s (committedItems s) = false →
      ∃ t, exec .rackCommitApply s = .next t ∧ t.cfg = s.cfg ∧ t.flt.fstat.getLsbD 13 = true
        ∧ (canWrite s = false → t.cnt.counters.getD 73 0 = (s.cnt.counters.modify 73 (· + 1)).getD 73 0))
    ∧ (s.cfg.hasPending = true → s.cfg.order = none →
      ∃ t, exec .pendingDiscard s = .next t ∧ t.cfg.hasPending = false ∧ t.cfg.pending = [] ∧ t.cfg.params = s.cfg.params
        ∧ t.cfg.effective = s.cfg.effective ∧ s.cfg.pendingAt + sec 1 ≤ t.clk.now)

/-- Version reports, grants, the restart into the other slot, and the end of the trial. Rests on 16_security_lifecycle_update.md,
09_rack_coordination.md. -/
def Obligations.ActivationIsGrantedRestartedAndTried : Prop :=
  ∀ s : State,
    (∀ (src : Byte) (data : List Byte), s.rack.wellhead = true → data.getD 0 0 = 0x10 → 1 ≤ src.toNat → src.toNat ≤ s.rack.rows.length →
      ∃ t, exec (.versionReport src data) s = .next t ∧ (row t src.toNat).version = some (versionOf data)
        ∧ t.rack.grantTo = s.rack.grantTo.filter (· != src.toNat) ∧ t = { s with rack := t.rack })
    ∧ (∀ (src : Byte) (data : List Byte), s.rack.wellhead = true → data.getD 0 0 = 0x11 →
      ∃ t, exec (.activationRequest src data) s = .next t ∧ t.clk = s.clk ∧ t.lad = s.lad ∧ t.cfg = s.cfg
        ∧ ((judgeRequest src.toNat (versionOf data) s).1 = 0 → t.rack.grantTo = some src.toNat ∧ t.rack.grantAt = s.clk.now)
        ∧ ((judgeRequest src.toNat (versionOf data) s).1 ≠ 0 → t.rack.grantTo = s.rack.grantTo))
    ∧ (∀ (src : Nat) (v : VersionRep) (h : Nat), s.rack.grantTo = some h → h ≠ src → judgeRequest src v s = (0x02, h))
    ∧ (s.rack.grantTo ≠ none → ∃ t, exec .grantExpiry s = .next t ∧ t.rack.grantTo = none ∧ s.rack.grantAt + ms 200 ≤ t.clk.now ∧ t.lad = s.lad)
    ∧ (∀ (req : Req) (rest : List Byte), s.upd.actReq = some req → Room req.mb s → (mail s req.mb).dropRun = [] →
      (∃ t, exec (.grantReceived (0x12 :: 0x00 :: rest)) s = .next t ∧ Replied req 0x0B05 0x00 [] s t ∧ t.upd.actReq = none
        ∧ t.host.restart.isSome = true)
      ∧ (∀ r : Byte, (r = 0x02 ∨ r = 0x41) →
        ∃ t, exec (.grantReceived (0x12 :: r :: rest)) s = .next t ∧ Replied req 0x0B05 r [] s t ∧ t.upd.actReq = none
          ∧ t.host.restart = s.host.restart)
      ∧ (s.rack.wellhead = false →
        ∃ t, exec .grantTimeout s = .next t ∧ Replied req 0x0B05 0x02 [] s t ∧ t.upd.actReq = none ∧ s.upd.actAt + ms 4 ≤ t.clk.now
          ∧ t.host.restart = s.host.restart))
    ∧ (∀ due : Nat, s.host.restart = some (true, due) → (s.clk.pstate = .run ∨ s.clk.pstate = .watch) →
      ∃ t, exec .activationRestart s = .next t ∧ due ≤ t.clk.now ∧ t.clk.inReset = some .activate ∧ t.upd.activating = true ∧ t.cnt.gap = s.cnt.gap
        ∧ t.clk.ringKnown = s.clk.ringKnown ∧ t.host.running = []
        ∧ (imageVerifies s (inactiveSlot s) = true → t.upd.activeSlot = some (inactiveSlot s) ∧ t.upd.trial = some t.clk.now
            ∧ t.upd.prevSlot = s.upd.activeSlot)
        ∧ (imageVerifies s (inactiveSlot s) = false → t.upd.activeSlot = s.upd.activeSlot ∧ t.upd.img = .failed))
    ∧ (∀ at_ : Nat, s.clk.pstate = .run → s.upd.trial = some at_ →
      ∃ t, exec .trialEnd s = .next t ∧ t.upd.trial = none ∧ at_ + (sec 60 - s.upd.trialRun) ≤ t.clk.now ∧ t.upd.activeSlot = s.upd.activeSlot
        ∧ t.key.floor.toNat = max s.key.floor.toNat s.upd.floorNew.toNat)

/-- Frames are forwarded, turned or dropped, and the lines are shared (log entries 139 and 191). Rests on 10_relide_ring.md. -/
def Obligations.LinesAreSharedAndFramesForwarded : Prop :=
  ∀ (s : State) (p : Port), onRing s = true →
    let o := otherPort p
    let q := portOf s p
    let first := fun (f : Frame) => burstOf s f (frameGroups f) s.clk.ring
    let heard := fun (f : Frame) => { q with
      heardUntil := s.clk.now + groupNs (first f),
      hears := if suspendable f then ((frameGroups f - first f, s.clk.now + groupNs (first f)) :: q.hears).take 3 else q.hears }
    let on := fun (f : Frame) => { rehop f f.turned with eof := f.eof && f.crc == frameCrc f }
    (∀ f : Frame, f.ftype = 1 → (portOf s o).state = .up → receiving s o = false → f.hops.toNat < 31 → (portOf s o).sentCmd = false → q.sentCmd = false →
      ∃ t, exec (.frameForward p f) s = .next t ∧ (portOf t o).busy = some (on f)
        ∧ (portOf t o).sentCmd = true ∧ (rehop f f.turned).hops = f.hops + 1 ∧ portOf t p = heard f ∧ t.clk = s.clk ∧ t.lad = s.lad
        ∧ t.rack = { s.rack with shelves := t.rack.shelves })
    ∧ (∀ f : Frame, f.ftype = 1 →
      ((portOf s o).sentCmd = true ∨ q.sentCmd = true ∨ receiving s o = true ∨ (portOf s o).state ≠ .up ∨ 31 ≤ f.hops.toNat) →
      ∃ t, exec (.frameForward p f) s = .next t ∧ portOf t p = heard f ∧ portOf t o = portOf s o)
    ∧ (∀ f : Frame, f.ftype = 3 → s.rack.wellhead = false → f.hops.toNat + 1 < 62 → (portOf s o).state = .up → (portOf s o).busy = none →
      startsNow s o (on f) = true →
      ∃ t, exec (.frameForward p f) s = .next t ∧ (portOf t o).busy = some (on f) ∧ portOf t p = heard f)
    ∧ (∀ f g : Frame, f.ftype = 3 → s.rack.wellhead = false → f.hops.toNat + 1 < 62 → (portOf s o).state = .up → (portOf s o).busy = some g →
      startsNow s o (on f) = true →
      let rest := (portOf s o).left + ((portOf s o).txUntil - s.clk.now) * 2 / 125
      ∃ t, exec (.frameForward p f) s = .next t ∧ (g.ftype = 4 ∨ g.ftype = 5) ∧ (portOf t o).busy = some (on f)
        ∧ (portOf t o).suspended = (if 0 < rest then [(g, s.clk.now, rest)] else []) ++ (portOf s o).suspended ∧ portOf t p = heard f)
    ∧ (∀ f : Frame, f.ftype = 3 → s.rack.wellhead = false → f.hops.toNat + 1 < 62 → (portOf s o).state = .up → startsNow s o (on f) = false →
      ((portOf s o).waiting.map frameSize).foldl (· + ·) 0 + frameSize f ≤ 2048 →
      ∃ t, exec (.frameForward p f) s = .next t ∧ portOf t o = { portOf s o with waiting := queueFrame (on f) (portOf s o).waiting }
        ∧ portOf t p = heard f)
    ∧ (∀ f : Frame, f.ftype = 3 → s.rack.wellhead = false → f.hops.toNat + 1 < 62 → (portOf s o).state ≠ .up → f.turned = false → q.state = .up →
      (q.waiting.map frameSize).foldl (· + ·) 0 + frameSize f ≤ 2048 →
      ∃ t, exec (.frameForward p f) s = .next t ∧ portOf t o = portOf s o
        ∧ (portOf t p).waiting = queueFrame { rehop f true with eof := f.eof && f.crc == frameCrc f } q.waiting ∧ (portOf t p).busy = q.busy)
    ∧ (∀ f : Frame, f.ftype = 3 → (s.rack.wellhead = true ∨ 62 ≤ f.hops.toNat + 1) →
      ∃ t, exec (.frameForward p f) s = .next t ∧ portOf t p = heard f ∧ portOf t o = portOf s o ∧ t.rack = { s.rack with shelves := t.rack.shelves })
    ∧ (∀ f : Frame, (f.ftype = 2 ∨ f.ftype = 5) →
      ∃ t, exec (.frameForward p f) s = .next t ∧ portOf t p = heard f ∧ portOf t o = portOf s o ∧ t = { s with ring := t.ring })
    ∧ (∀ f : Frame, (f.ftype = 0 ∨ 7 < f.ftype.toNat) → exec (.frameForward p f) s = .next s)
    ∧ (s.clk.ringKnown = true →
      ∃ t, exec .commandWindowOpen s = .next t ∧ (∀ r, (portOf t r).window = true ∧ (portOf t r).sentCmd = false ∧ (portOf t r).busy = none
        ∧ (portOf t r).state = (portOf s r).state ∧ (portOf t r).gapUntil = 0 ∧ ((portOf s r).hears ≠ [] → (portOf t r).heardUntil ≤ t.clk.now))
        ∧ t.rack = s.rack ∧ t.lad = s.lad ∧ (s.clk.phaseErr = 0 → t.clk.ring % 10000 = 1950))
    ∧ (q.state = .up →
      let v := closeWindow p (lineEnds p s)
      let u := suspendBusy p v
      let r := portOf u p
      let pick := fun (f : Frame) => fitsLine u p f && (!r.inGap u.clk.now || decide (f.ftype.toNat ≤ 4))
      (∀ g : Frame, q.busy = some g → q.txUntil ≤ u.clk.now ∧ r.suspended = (if suspendable g ∧ 0 < q.left then [(g, u.clk.now, q.left)] else [])
          ++ q.suspended.take (if suspendable g ∧ 0 < q.left then 1 else q.suspended.length))
      ∧ (q.window = true → q.sentCmd = false → s.clk.phaseErr = 0 → u.clk.ring % 10000 = 8750)
      ∧ (gapDue p v = true →
        ∃ t, exec (.portLineFree p) s = .next t ∧ (portOf t p).busy = none ∧ (portOf t p).gapUntil = v.clk.now + 125 ∧ (portOf t p).waiting = q.waiting
          ∧ (portOf t p).suspended = r.suspended ∧ portOf t o = portOf s o ∧ t.clk = v.clk)
      ∧ (gapDue p v = false → (r.inGap u.clk.now = true ∨ r.suspended.head?.all (fun g => !fitsLine u p g.1) = true) → r.waiting.find? pick = none →
        ∃ t, exec (.portLineFree p) s = .next t ∧ (portOf t p).busy = none ∧ (portOf t p).window = false ∧ (portOf t p).waiting = q.waiting
          ∧ portOf t o = portOf s o ∧ t.clk = u.clk
          ∧ (∀ (h : Nat × Nat) (hs : List (Nat × Nat)), r.hears.filter (fun h => decide (0 < h.1)) = h :: hs →
              (portOf t p).hears = (h.1 - min h.1 32, (portOf t p).heardUntil) :: hs
              ∧ (portOf t p).heardUntil = max r.heardUntil u.clk.now + 125 + groupNs (min h.1 32)))
      ∧ (∀ f : Frame, gapDue p v = false → r.waiting.find? pick = some f →
        (r.inGap u.clk.now = true ∨ r.suspended.all (fun g => decide (f.ftype.toNat < g.1.ftype.toNat)) = true) →
        ∃ t g, exec (.portLineFree p) s = .next t ∧ (portOf t p).busy = some g ∧ g.body = f.body ∧ g.ftype = f.ftype
          ∧ (portOf t p).waiting = q.waiting.erase f ∧ (portOf t p).window = false
          ∧ (ownRouted u f = false → ownFlooded u p f = false → g = f)
          ∧ ((ownRouted u f = true ∨ ownFlooded u p f = true) → g.ttx = BitVec.ofNat 32 (startAt p f.ftype.toNat u)))
      ∧ (∀ (g : Frame × Nat × Nat) (gs : List (Frame × Nat × Nat)), gapDue p v = false → r.inGap u.clk.now = false → r.suspended = g :: gs →
        q.waiting = [] → fitsLine u p g.1 = true →
        ∃ t, exec (.portLineFree p) s = .next t ∧ (portOf t p).busy = some g.1 ∧ (portOf t p).suspended = gs
          ∧ (portOf t p).left = g.2.2 - burstOf u g.1 g.2.2 (lineAt p u)))
    ∧ (∀ h : Nat × Nat, q.hears.getLast? = some h → 0 < h.1 →
      ∃ t, exec (.suspendTimeout p) s = .next t ∧ (portOf t p).hears = q.hears.dropLast ∧ h.2 + us 100 ≤ t.clk.now ∧ t.ring.rejected = s.ring.rejected
        ∧ portOf t o = portOf s o)
    ∧ (q.hears = [] → exec (.suspendTimeout p) s = .next s)

/-- Ports train, exchange SYNC, take ring time from their source, and go down (log entry 200). Rests on 10_relide_ring.md,
03_states_clocks_resets.md. -/
def Obligations.PortsTrainAndTakeRingTime : Prop :=
  ∀ (s : State) (p : Port), onLink s = true →
    let epochOf := fun (f : Frame) => BitVec.ofNat 32 (fieldAt f.body 0 4)
    (((portOf s p).state = .up → s.rack.wellhead = true → s.clk.firstSyncDue = false) → (portOf s p).state ≠ .down →
      ((portOf s p).state = .training → (burstDue p (portOf s p)).isSome = true) →
      ∃ t g, exec (.syncSend p) s = .next t ∧ (portOf t p).busy = some g ∧ g.ftype = 2 ∧ g.body = syncBody t p
        ∧ (portOf t p).lastTx = some t.clk.ring ∧ (portOf t p).window = false ∧ t.cnt.counters = s.cnt.counters.modify 52 (· + 1) ∧ t.rack = s.rack
        ∧ (∀ due, (portOf s p).state = .training → burstDue p (portOf s p) = some due → due ≤ t.clk.now ∧ (portOf t p).burstAt = some t.clk.now)
        ∧ ((portOf s p).state = .up → s.clk.ringKnown = true → s.clk.phaseErr = 0 → freshT 2 s ≤ s.clk.ring →
            t.clk.ring % 100000 = (if p = .lka then 99000 else 49000)))
    ∧ (((portOf s p).state = .down ∨ ((portOf s p).state = .training ∧ burstDue p (portOf s p) = none)) → exec (.syncSend p) s = .next s)
    ∧ (∀ f : Frame, f.ftype ≠ 2 → exec (.syncReceived p f) s = .next s)
    ∧ (∀ f : Frame, f.ftype = 2 → (portOf s p).state ≠ .down → syncRejected (endReceipt p f s) p f = none →
      ∃ t, exec (.syncReceived p f) s = .next t ∧ t.lad = s.lad
        ∧ (portOf t p).dist = (if unsealed s f then 0xFF else f.body.getD 25 0xFF) ∧ (portOf t p).missed = 0
        ∧ (unsealed s f = false → t.rack.highEpoch = (if newer (epochOf f) s.rack.highEpoch then epochOf f else s.rack.highEpoch))
        ∧ ((portOf s p).state = .training → (portOf s p).exchanges < 3 →
            (portOf t p).state = .training ∧ (portOf t p).exchanges = (portOf s p).exchanges + 1)
        ∧ ((portOf s p).state = .training → 3 ≤ (portOf s p).exchanges → (portOf t p).state = .up)
        ∧ (unsealed s f = false → s.rack.wellhead = false → newer t.rack.highEpoch (epochOf f) = false → distVia (portOf t p) < 0xFF → t.ring.source = p →
            (s.clk.firstSyncDue = false ∨ (portOf s p).state = .up) →
            t.clk.ringKnown = true ∧ t.clk.timeState = .synced ∧ t.clk.lastSync = t.clk.now)
        ∧ ((s.rack.wellhead = true ∨ newer s.rack.highEpoch (epochOf f) = true ∨ unsealed s f = true) →
            t.clk.ring = (endReceipt p f s).clk.ring ∧ t.clk.timeState = s.clk.timeState))
    ∧ (∀ (f : Frame) (c : Nat), f.ftype = 2 → (portOf s p).state ≠ .down → syncRejected (endReceipt p f s) p f = some c →
      ∃ t, exec (.syncReceived p f) s = .next t ∧ t.flt.fstat.getLsbD 18 = true ∧ t.ring.rejected = s.ring.rejected + 1
        ∧ t.clk = (endReceipt p f s).clk
        ∧ ((portOf t p).state = .down ∨ ((portOf t p).state = (portOf s p).state ∧ (portOf t p).missed = (portOf s p).missed + 1))
        ∧ (portOf t p).exchanges = 0)
    ∧ ((portOf s p).state = .down → (portOf s p).heldDown ≤ s.clk.now →
      ∃ t, exec (.trainingBurst p true) s = .next t ∧ (portOf t p).state = .training ∧ (portOf t p).exchanges = 0
        ∧ (portOf t p).heardAt = some s.clk.now ∧ portOf t (otherPort p) = portOf s (otherPort p) ∧ t.clk = s.clk)
    ∧ ((portOf s p).state = .down → s.clk.now < (portOf s p).heldDown →
      ∃ t, exec (.trainingBurst p true) s = .next t ∧ (portOf t p).state = .down ∧ t = { s with ring := t.ring })
    ∧ ((portOf s p).state ≠ .down → ∀ heard : Bool, exec (.trainingBurst p heard) s = .next s)
    ∧ (∀ due : Nat, (portOf s p).state = .down → burstDue p (portOf s p) = some due →
      ∃ t, exec (.trainingBurst p false) s = .next t ∧ due ≤ t.clk.now ∧ (portOf t p).burstAt = some t.clk.now ∧ (portOf t p).state = .down
        ∧ t.rack = s.rack ∧ t.lad = s.lad)
    ∧ ((portOf s p).state = .down → burstDue p (portOf s p) = none → exec (.trainingBurst p false) s = .next s)
    ∧ ((portOf s p).state = .down → exec (.portDown p) s = .next s)
    ∧ ((portOf s p).state ≠ .down →
      ∃ t, exec (.portDown p) s = .next t ∧ (portOf t p).state = .down ∧ (portOf t p).dist = 0xFF ∧ t.flt.fstat.getLsbD 18 = true
        ∧ t.cnt.counters.getD 63 0 = (s.cnt.counters.modify 63 (· + 1)).getD 63 0 ∧ t.lad = s.lad
        ∧ ((sourceRec t 18).severe = true → (portOf t p).heldDown = s.clk.now + sec 10))

/-- Messages are delivered once, acknowledged, retried four times and then given up. Rests on 10_relide_ring.md, 13_host_port_and_mailboxes.md. -/
def Obligations.MessagesAreDeliveredOnceAndRetried : Prop :=
  ∀ (s : State) (p : Port),
    (∀ f : Frame, Applies p f s → f.ftype = 4 → (f.body.headD 0).toNat = position s → f.body.headD 0 ≠ 0xFF →
      (f.body.getD 1 0).getLsbD 0 = false → f.body.getD 6 0 = 0 →
      let data := bytesAt f.body 8 (fieldAt f.body 4 2)
      let new := (f.body.getD 1 0).getLsbD 1 = true ∨ getKey f.src.toNat s.ring.lastSeq ≠ some (f.body.getD 2 0)
      (data.getD 3 0).getLsbD 7 = false → s.host.mail.length = 4 →
      ∃ t, exec (.msgReceived p f) s = .next t
        ∧ (new → (mail s .ring).reqQ.length < 8 → (mail t .ring).reqQ = (mail s .ring).reqQ ++ [data]
            ∧ getKey (data.getD 2 0).toNat t.host.ringFrom = some f.src.toNat ∧ getKey f.src.toNat t.ring.lastSeq = some (f.body.getD 2 0))
        ∧ (new → 8 ≤ (mail s .ring).reqQ.length → (mail t .ring).reqQ = (mail s .ring).reqQ ∧ (mail t .ring).reqOvf = true)
        ∧ (¬new → t.host = s.host ∧ t.ring.lastSeq = s.ring.lastSeq)
        ∧ ∀ mb, mb ≠ .ring → mail t mb = mail s mb)
    ∧ (∀ f : Frame, Applies p f s → f.ftype = 4 → (f.body.headD 0).toNat = position s → (f.body.getD 1 0).getLsbD 0 = true →
      s.ring.msgQueue = [] →
      ∃ t, exec (.msgReceived p f) s = .next t ∧ t.host = s.host
        ∧ t.ring.flight = s.ring.flight.filter fun m => !(m.dst == f.src && m.seq == f.body.getD 3 0))
    ∧ (∀ f : Frame, (f.ftype ≠ 4 ∨ (f.body.headD 0 ≠ 0xFF ∧ (f.body.headD 0).toNat ≠ position s)) → exec (.msgReceived p f) s = .next s)
    ∧ (∀ (dst : Byte) (m : Msg), s.ring.flight.find? (·.dst == dst) = some m →
      (m.tries < 4 → ∃ t, exec (.msgRetry dst) s = .next t ∧ m.due ≤ t.clk.now
          ∧ t.ring.flight = s.ring.flight.erase m ++ [{ m with port := otherPort m.port, tries := m.tries + 1, due := t.clk.now + ms 1 }]
          ∧ t.cnt.counters.getD 61 0 = (s.cnt.counters.modify 61 (· + 1)).getD 61 0 ∧ t.host = s.host)
      ∧ (4 ≤ m.tries → ∃ t, exec (.msgRetry dst) s = .next t ∧ m.due ≤ t.clk.now
          ∧ t.ring.undelivered = s.ring.undelivered ++ [(dst.toNat, m.chan.toNat)]
          ∧ t.cnt.counters.getD 62 0 = (s.cnt.counters.modify 62 (· + 1)).getD 62 0))

/-- IMAGE, SLEEP and SNAP frames, and the latching of counter cuts. Rests on 09_rack_coordination.md, 10_relide_ring.md,
16_security_lifecycle_update.md, 18_counters_trace_debug.md. -/
def Obligations.ImageSleepAndSnapFramesAct : Prop :=
  (∀ (s : State) (p : Port),
     (∀ f : Frame, Applies p f s → f.ftype = 5 →
       let i := fieldAt f.body 4 2
       s.ring.relaySrc = false → s.ring.relaying = true → s.ring.relayId = BitVec.ofNat 32 (fieldAt f.body 0 4) →
       s.upd.img = .partly → activationRuns s = false → canWrite s = true → i < fieldAt f.body 6 2 → fieldAt f.body 6 2 ≤ 2048 →
       Memory.wf (patchSlot s (inactiveSlot s)) = true →
       (s.upd.chunks.contains i = true →
         ∃ t, exec (.imageFrameReceived p f) s = .next t ∧ t.nv.slot0 = s.nv.slot0 ∧ t.nv.slot1 = s.nv.slot1 ∧ t.upd = s.upd)
       ∧ (s.upd.chunks.contains i = false → s.upd.chunks.length + 1 < s.ring.relayCount →
         ∃ t, exec (.imageFrameReceived p f) s = .next t ∧ t.upd.chunks = i :: s.upd.chunks ∧ t.upd.img = .partly
           ∧ i ∈ (portOf t (otherPort p)).imageQ ∧ Memory.wf (patchSlot t (inactiveSlot s)) = true
           ∧ (∀ j, j < 256 → readByte (256 * i + j) (patchSlot t (inactiveSlot s)) = (bytesAt f.body 8 256).getD j 0)
           ∧ (∀ a, ¬(256 * i ≤ a ∧ a < 256 * i + 256) →
               readByte a (patchSlot t (inactiveSlot s)) = readByte a (patchSlot s (inactiveSlot s)))
           ∧ patchSlot t (!inactiveSlot s) = patchSlot s (!inactiveSlot s)))
     ∧ (∀ (i : Nat) (is : List Nat), onRing s = true → (portOf s p).state = .up → (portOf s p).imageQ = i :: is → s.ring.relaySrc = false → position s ≠ 0 →
       ∃ t, exec (.imageFrameSend p) s = .next t ∧ (portOf t p).imageQ = is ∧ t.cnt.counters = s.cnt.counters.modify 55 (· + 1)
         ∧ t.upd = s.upd ∧ t.nv.slot0 = s.nv.slot0 ∧ t.nv.slot1 = s.nv.slot1 ∧ (portOf t p).imageAt = some t.clk.now
         ∧ (∀ a, (portOf s p).imageAt = some a → a + us 1400 ≤ t.clk.now))
     ∧ (onRing s = true → (portOf s p).state = .up → (portOf s p).imageQ = [] → s.ring.relaySrc = true → s.ring.relaying = true →
       (portOf s p).nextImage + 1 < s.ring.relayCount → position s ≠ 0 →
       ∃ t, exec (.imageFrameSend p) s = .next t ∧ (portOf t p).nextImage = (portOf s p).nextImage + 1
         ∧ t.cnt.counters = s.cnt.counters.modify 55 (· + 1) ∧ t.ring.relaying = true)
     ∧ (∀ f : Frame, Applies p f s → f.ftype = 7 → s.rack.wellhead = false → fieldAt f.body 17 1 = 0 →
       let vote := BitVec.ofNat 32 (fieldAt f.body 4 4)
       ∃ t, exec (.sleepFrameReceived p f) s = .next t ∧ t.lad = s.lad ∧ t.clk = (endReceipt p f s).clk
         ∧ (fieldAt f.body 16 1 = 1 → mayVoteYes (endReceipt p f s) = true → t.rack.votedYes = some vote)
         ∧ (fieldAt f.body 16 1 = 1 → mayVoteYes (endReceipt p f s) = false → t.rack.votedYes = s.rack.votedYes)
         ∧ (fieldAt f.body 16 1 = 5 → t.rack.sleepAt = some (fieldAt f.body 8 8) ∧ t.rack.votedYes = none)
         ∧ (fieldAt f.body 16 1 = 6 → t.rack.votedYes = none ∧ t.rack.sleepAt = s.rack.sleepAt))
     ∧ (∀ (f : Frame) (tc : Nat), Applies p f s → f.ftype = 7 → s.rack.wellhead = true → fieldAt f.body 17 1 ≠ 0 →
       BitVec.ofNat 32 (fieldAt f.body 4 4) = s.rack.voteNo → fieldAt f.body 16 1 = 4 → s.rack.sleepAt = some tc →
       ∃ t, exec (.sleepFrameReceived p f) s = .next t ∧ t.clk.wakeLatch = true ∧ t.rack.sleepAt = some tc)
     ∧ (∀ f : Frame, Applies p f s → f.ftype = 7 → s.rack.wellhead = true → fieldAt f.body 17 1 ≠ 0 →
       BitVec.ofNat 32 (fieldAt f.body 4 4) = s.rack.voteNo → (fieldAt f.body 16 1 = 3 ∨ (fieldAt f.body 16 1 = 4 ∧ s.rack.sleepAt = none)) →
       s.rack.voting = true →
       ∃ t, exec (.sleepFrameReceived p f) s = .next t ∧ t.rack.voting = false ∧ t.rack.sleepAt = s.rack.sleepAt
         ∧ ∀ r ∈ t.host.running, s.rack.voteReq = some r.req → r.done = true))
  ∧ (∀ s : State,
       (∀ (order epoch : BitVec 32) (at_ : Nat) (rest : List (BitVec 32 × BitVec 32 × Nat)), s.clk.pstate = .run → s.clk.inReset = none →
         s.cnt.orders = (order, epoch, at_) :: rest → s.nv.cutWait = [] →
         ∃ t c, exec .snapLatch s = .next t ∧ t.cnt.orders = rest ∧ c = cutNow order epoch at_ (decide (at_ < s.clk.ring)) { t with cnt := s.cnt }
           ∧ (canWrite s = true → c ∈ t.nv.cuts ∧ (∀ d ∈ t.nv.cuts, d.order.toNat % 256 = order.toNat % 256 → d = c))
           ∧ (canWrite s = false → t.nv.cutWait = [c] ∧ t.nv.cuts = s.nv.cuts)
           ∧ t.cnt.gap = List.replicate 96 false ∧ t.cnt.counters = s.cnt.counters.modify 95 (· + 1) ∧ t.cnt.hist = s.cnt.hist
           ∧ (s.clk.ringKnown = true → s.clk.phaseErr = 0 → s.clk.ring ≤ at_ → t.clk.ring = at_))
       ∧ (s.nv.cutWait ≠ [] → exec .snapLatch s = .next s)
       ∧ (∀ (p : Port) (f : Frame), Applies p f s → f.ftype = 6 →
         let order := BitVec.ofNat 32 (fieldAt f.body 4 4)
         let due := fieldAt f.body 8 8
         ((endReceipt p f s).clk.ring ≤ due ∨ s.cnt.orders ≠ [] ∨ s.nv.cutWait ≠ [] →
           ∃ t, exec (.snapReceived p f) s = .next t ∧ t.cnt.orders = s.cnt.orders ++ [(order, BitVec.ofNat 32 (fieldAt f.body 0 4), due)]
             ∧ t.rack.snapNo = (if newer order s.rack.snapNo then order else s.rack.snapNo) ∧ t.nv.cuts = s.nv.cuts)
         ∧ (due < (endReceipt p f s).clk.ring → s.cnt.orders = [] → s.nv.cutWait = [] →
           ∃ t, exec (.snapReceived p f) s = .next t ∧ t.cnt.orders = [] ∧ t.cnt.gap = List.replicate 96 false
             ∧ t.cnt.counters.getD 95 0 = (s.cnt.counters.modify 95 (· + 1)).getD 95 0))
       ∧ (∀ (k : Fin 96) (lat : BitVec 32), 24 ≤ k.val → k.val ≤ 40 →
         ∃ t e, exec (.counterOverflowIrq k lat) s = .next t ∧ t.cnt.precise = s.cnt.precise.drop (s.cnt.precise.length - 255) ++ [e]
           ∧ e.event = BitVec.ofNat 8 k.val ∧ e.latency = lat ∧ t.cnt.irqs = s.cnt.irqs ++ [k.val] ∧ t.cnt.counters = s.cnt.counters
           ∧ t.lad = s.lad)
       ∧ (∀ (k : Fin 96) (lat : BitVec 32), (k.val < 24 ∨ 40 < k.val) → exec (.counterOverflowIrq k lat) s = .next s))

/-- Time marks, snapshots, deferred records, captures, the journal and the scrub. Rests on 15_storage_and_recorder.md. -/
def Obligations.RecordsAndTheJournalAreWritten : Prop :=
  (∀ s : State,
     (∀ at_ : Nat, s.clk.pstate = .run → s.nv.lastFullTime = some at_ → s.clk.ringKnown = true → canWrite s = true → s.nv.buffer = [] →
       ∃ t r, exec .timeMark s = .next t ∧ t.nv.recs.head? = some r ∧ r.kind = 0x04 ∧ r.source = 0xFF ∧ r.seq = s.nv.recNext
         ∧ t.nv.recNext = s.nv.recNext + 1 ∧ t.nv.lastFullTime = some t.clk.ring ∧ t.lad = s.lad)
     ∧ (s.par 0x0901 ≠ 0 → (s.clk.pstate = .run ∨ s.clk.pstate = .watch) → canWrite s = true → s.nv.buffer = [] →
       ∃ t r, exec .periodicSnapshot s = .next t ∧ t.nv.recs.head? = some r ∧ r.kind = 0x03 ∧ r.source = 0xFF ∧ r.seq = s.nv.recNext
         ∧ t.nv.recNext = s.nv.recNext + 1 ∧ s.nv.snapAt ≤ t.clk.now ∧ t.nv.snapAt = t.clk.now + sec (s.parN 0x0901))
     ∧ (s.par 0x0901 = 0 → exec .periodicSnapshot s = .next s)
     ∧ (canWrite s = true →
       ∃ t, exec .deferredRecordFlush s = .next t ∧ t.nv.buffer = [] ∧ t.nv.cutWait = [] ∧ t.aux.waiting = [] ∧ t.lad = s.lad
         ∧ ∃ n, t.nv.recs = (s.nv.buffer.reverse ++ s.nv.recs).take n)
     ∧ (canWrite s = false → exec .deferredRecordFlush s = .next s)
     ∧ (∀ cause : Fin 4, s.clk.pstate = .run → s.nv.capture = .idle → (s.parN 0x0902).testBit cause.val = true →
       ∃ t, exec (.captureTrigger cause) s = .next t ∧ t.nv.capture = .running ∧ t.nv.capLeft = 1000 ∧ t.nv.capTrig = s.nv.recNext
         ∧ (canWrite s = true → s.nv.buffer = [] → s.nv.capRing.length ≤ 1000 → t.nv.capWritten = s.nv.capRing.length) ∧ t.lad = s.lad)
     ∧ (∀ cause : Fin 4, (s.clk.pstate ≠ .run ∨ s.nv.capture ≠ .idle ∨ (s.parN 0x0902).testBit cause.val = false) → exec (.captureTrigger cause) s = .next s)
     ∧ (s.clk.pstate = .run →
       ∃ t, exec .captureSample s = .next t ∧ t.nv.capRing.length ≤ 1000 ∧ t.nv.capRing.tail <+: s.nv.capRing ∧ t.lad = s.lad
         ∧ (s.nv.capture = .running → 0 < s.nv.capLeft → t.nv.capLeft + 1 = s.nv.capLeft
           ∧ (canWrite s = true → s.nv.buffer = [] → t.nv.capWritten = s.nv.capWritten + 1)
           ∧ t.nv.capWritten ≤ s.nv.capWritten + 1)
         ∧ (s.nv.capture ≠ .running → t.nv.recs = s.nv.recs ∧ t.nv.buffer = s.nv.buffer))
     ∧ (s.nv.capture = .running → s.nv.capLeft = 0 →
       ∃ t, exec .captureEnd s = .next t ∧ t.nv.capture = .holdoff ∧ t.nv.capHold = t.clk.now + sec 10 ∧ t.nv.capReq = none
         ∧ ∀ r ∈ t.host.running, s.nv.capReq = some r.req → r.done = true)
     ∧ (s.nv.capture = .holdoff → ∃ t, exec .captureHoldoffEnd s = .next t ∧ t.nv.capture = .idle ∧ s.nv.capHold ≤ t.clk.now
         ∧ t.nv.recs = s.nv.recs))
  ∧ (∀ s : State,
       (s.clk.replayed = false → chooseRegion s = none →
         ∃ t, exec .journalReplay s = .next t ∧ t.clk.replayed = true ∧ t.nv.empty = true ∧ t.cfg.params = [] ∧ t.cfg.effective = []
           ∧ t.cfg.gen = 0 ∧ t.cfg.hasPending = false ∧ t.rack.everObeyed = false ∧ t.clk.coldPending = false)
       ∧ (∀ b : Bool, s.clk.replayed = false → chooseRegion s = some b →
         let p := replayRegion (if b then s.nv.regB else s.nv.regA)
         ∃ t, exec .journalReplay s = .next t ∧ t.clk.replayed = true ∧ t.nv.empty = p.1.groups.isEmpty ∧ t.nv.activeB = b
           ∧ ((activeRegion t).groups = p.1.groups ∨ (activeRegion t).groups = p.1.groups.map JGroup.repair) ∧ t.cfg.params = (regionItems p.1).params.getD [] ∧ t.cfg.effective = t.cfg.params
           ∧ (∀ g, p.1.groups.getLast? = some g → t.nv.jseq = g.seq ∧ t.cfg.gen = g.gen)
           ∧ (p.2 = true → t.flt.fstat.getLsbD 13 = true) ∧ t.clk.coldPending = false
           ∧ t.chg.holdupCut = (if s.clk.coldPending then (regionItems p.1).cut.getD false else s.chg.holdupCut))
       ∧ (s.clk.replayed = true → exec .journalReplay s = .next s)
       ∧ (∀ sq : BitVec 32, canWrite s = true →
         (s.nv.compact = some (1, sq) → ∃ t, exec .compactionSlice s = .next t ∧ t.nv = { s.nv with compact := some (2, s.nv.jseq) })
         ∧ (s.nv.compact = some (2, sq) → ∃ t g, exec .compactionSlice s = .next t ∧ (otherRegion t).groups = [g] ∧ g.kind = 0x4 ∧ g.seq = sq
             ∧ g.items = regionItems { activeRegion s with groups := (activeRegion s).groups.filter fun g => !newer g.seq sq }
             ∧ activeRegion t = activeRegion s)
         ∧ (s.nv.compact = some (3, sq) → ∃ t, exec .compactionSlice s = .next t
             ∧ (otherRegion t).groups = (otherRegion s).groups ++ toCopy s ∧ activeRegion t = activeRegion s)
         ∧ (s.nv.compact = some (4, sq) → toCopy s = [] → ∃ t, exec .compactionSlice s = .next t ∧ t.nv.activeB = !s.nv.activeB
             ∧ (activeRegion t).groups = (otherRegion s).groups ∧ (activeRegion t).valid = true)
         ∧ (s.nv.compact = some (5, sq) → ∃ t, exec .compactionSlice s = .next t ∧ t.nv.compact = none ∧ t.nv.compactions = s.nv.compactions + 1
             ∧ (otherRegion t).valid = false ∧ activeRegion t = activeRegion s ∧ t.cnt.counters = s.cnt.counters.modify 72 (· + 1)
             ∧ ∀ r ∈ t.host.running, s.nv.compactReq = some r.req → r.done = true))
       ∧ (canWrite s = false → exec .compactionSlice s = .next s)
       ∧ ((s.clk.pstate = .run ∨ s.clk.pstate = .watch) → s.flt.injections = [] →
         (∃ t, exec (.scrubPage false false) s = .next t ∧ t.nv.scrubPage = (s.nv.scrubPage + 1) % 32768 ∧ t.flt = s.flt ∧ t.cnt = s.cnt
           ∧ t.nv.badPages = s.nv.badPages ∧ t.nv.remap = s.nv.remap ∧ t.clk.now % ms 10 = 0)
         ∧ (∃ t, exec (.scrubPage true false) s = .next t ∧ t.nv.scrubPage = (s.nv.scrubPage + 1) % 32768 ∧ t.flt.fstat.getLsbD 14 = true
           ∧ t.cnt.counters.getD 77 0 = (s.cnt.counters.modify 77 (· + 1)).getD 77 0 ∧ t.nv.badPages = s.nv.badPages
           ∧ t.nv.weak.contains s.nv.scrubPage = true
           ∧ (s.nv.weak.contains s.nv.scrubPage = true → canWrite t = true → s.nv.remap.length < 2496 → t.nv.remap.any (·.1 == s.nv.scrubPage) = true))
         ∧ (∃ t, exec (.scrubPage false true) s = .next t ∧ t.nv.scrubPage = (s.nv.scrubPage + 1) % 32768 ∧ t.flt.fstat.getLsbD 14 = true
           ∧ t.cnt.counters.getD 78 0 = (s.cnt.counters.modify 78 (· + 1)).getD 78 0
           ∧ (0x400 ≤ s.nv.scrubPage → s.nv.scrubPage < 0x500 → t.flt.fstat.getLsbD 31 = true ∧ t.lad.oos = true)
           ∧ (0x2000 ≤ s.nv.scrubPage → s.nv.scrubPage < 0x3000 → s.nv.scrubPage ∈ t.nv.badPages))))

/-- A regulator channel checks, soft-starts, regulates, latches off and clears itself. Rests on 11_aux_power.md. -/
def Obligations.RegulatorsStartAndLatchOff : Prop :=
  ∀ (s : State) (x : Fin 4), shoreRuns s = true → s.aux.rails.length = 4 → s.aux.seqWait = false → s.aux.shed = [] →
    let r := railOf s x.val
    let brown := x.val < 3 ∧ (s.clk.pstate = .run ∨ s.clk.pstate = .watch)
    let latched := fun (t : State) (cause : BitVec 4) => (railOf t x.val).st = .latchedOff ∧ (railOf t x.val).pg = false
      ∧ (railOf t x.val).cause = cause
      ∧ (¬brown → t.flt.fstat.getLsbD 11 = true ∧ (x.val = 2 → t.flt.fstat.getLsbD 31 = true ∧ t.lad.oos = true))
      ∧ (brown → t.clk.inReset = some .brownOut)
    (r.st = .checking →
      (∃ t, exec (.railShortCheckEnd x false) s = .next t ∧ (∀ y, y ≠ x.val → railOf t y = railOf s y) ∧ t.flt = s.flt
        ∧ r.rampFrom + checkNs s x.val ≤ t.clk.now
        ∧ (x.val = 1 → r.wakeStart = true → (railOf s 0).pg = false → railOf t 1 = { railOf s 1 with checked := true })
        ∧ ((x.val ≠ 1 ∨ r.wakeStart = false ∨ (railOf s 0).pg = true) → (railOf t x.val).st = .softStart ∧ (railOf t x.val).rampFrom = t.clk.now
            ∧ (railOf t x.val).rampTo = t.clk.now + us (if r.wakeStart then 80 else 100 * railPar s x.val 1)))
      ∧ ∃ t, exec (.railShortCheckEnd x true) s = .next t ∧ latched t 0x1)
    ∧ (∀ due : Nat, r.st = .off → r.startAt = some due → s.sup.holdup = false →
      ∃ t, exec (.railShortCheckEnd x false) s = .next t ∧ due + checkNs s x.val ≤ t.clk.now ∧ (railOf t x.val).st = .softStart)
    ∧ (r.st ≠ .checking → r.startAt = none → ∀ shorted : Bool, exec (.railShortCheckEnd x shorted) s = .next s)
    ∧ (∀ rd : ChanReading, r.st = .softStart →
      (5 * rd.vout.toNat < r.vset → ∃ t, exec (.softStartEnd x rd) s = .next t ∧ latched t 0x2 ∧ r.rampTo ≤ t.clk.now)
      ∧ (r.vset ≤ 5 * rd.vout.toNat →
        ∃ t, exec (.softStartEnd x rd) s = .next t ∧ (railOf t x.val).st = runState x.val s ∧ r.rampTo ≤ t.clk.now
          ∧ (railOf t x.val).vout = rd.vout.toNat ∧ (railOf t x.val).iout = rd.ipeak.toInt
          ∧ (railOf t x.val).pg = (r.pg && r.inWindow rd.vout.toNat) ∧ t.flt = s.flt ∧ t.lad = s.lad ∧ ∀ y, y ≠ x.val → railOf t y = railOf s y))
    ∧ (∀ rd : ChanReading, r.st ≠ .softStart → exec (.softStartEnd x rd) s = .next s)
    ∧ (∀ (why : RailTrip) (rd : ChanReading), (r.st = .regulating ∨ r.st = .burst ∨ (r.st = .softStart ∧ why ≠ .limited)) →
      ∃ t, exec (.railLatchOff x why rd) s = .next t ∧ latched t (tripCause why))
    ∧ (∀ rd : ChanReading, r.st = .softStart → exec (.railLatchOff x .limited rd) s = .next s)
    ∧ (∀ (why : RailTrip) (rd : ChanReading), r.st ≠ .regulating → r.st ≠ .burst → r.st ≠ .softStart → exec (.railLatchOff x why rd) s = .next s)
    ∧ ((r.st = .softStart ∨ r.st = .regulating ∨ r.st = .burst) → r.pg = false →
      ∃ t, exec (.railPowerGood x) s = .next t ∧ (railOf t x.val).pg = true ∧ (railOf t x.val).st = r.st ∧ (railOf t x.val).wakeStart = false
        ∧ r.windowAt + us (if r.wakeStart then 10 else 100) ≤ t.clk.now ∧ t.lad = s.lad ∧ t.flt = s.flt
        ∧ (x.val = 2 → (railOf s 0).pg = false → (railOf s 0).st = .off → s.clk.pstate ≠ .still → (railOf t 0).startAt = some (t.clk.now + us 200))
        ∧ (x.val = 2 → (railOf s 0).pg = true → (railOf s 1).st = .off → s.clk.pstate ≠ .still → (railOf t 1).startAt = some (t.clk.now + us 200))
        ∧ (x.val = 0 → (railOf s 1).checked = false → (railOf s 1).st = .off → s.clk.pstate ≠ .still →
            (railOf t 1).startAt = some (t.clk.now + us 200))
        ∧ (x.val = 0 → (railOf s 1).checked = true → (railOf t 1).st = .softStart)
        ∧ ((x.val = 1 ∨ x.val = 3) → ∀ y, y ≠ x.val → railOf t y = railOf s y))
    ∧ (((r.st ≠ .softStart ∧ r.st ≠ .regulating ∧ r.st ≠ .burst) ∨ r.pg = true) → exec (.railPowerGood x) s = .next s)
    ∧ (x.val ≠ 3 → r.st = .latchedOff → r.stuck = false →
      ∃ t, exec (.railAutoClear x) s = .next t ∧ r.latchedAt + ms 100 ≤ t.clk.now ∧ (railOf t x.val).cause = 0
        ∧ (s.sup.holdup = false → (railOf t x.val).st = (if x.val = 2 ∨ ((railOf s 2).pg = true ∧ s.clk.pstate ≠ .still) then .checking else .off)))
    ∧ ((r.stuck = true ∨ r.st ≠ .latchedOff ∨ x.val = 3) → exec (.railAutoClear x) s = .next s)
    ∧ (∀ enter : Bool, ((railOf s 3).st = .softStart ∨ (railOf s 3).st = .regulating) →
      ∃ t, exec (.channel3Dropout enter) s = .next t ∧ (railOf t 3).dropout = enter ∧ (railOf t 3).st = (railOf s 3).st
        ∧ (enter = false → (railOf t 3).pg = (railOf s 3).pg) ∧ t = { s with aux := t.aux })
    ∧ (∀ enter : Bool, (railOf s 3).st ≠ .softStart → (railOf s 3).st ≠ .regulating → exec (.channel3Dropout enter) s = .next s)

/-- An electronic fuse is checked, ramps, passes, limits and trips as its channel can. Rests on 11_aux_power.md. -/
def Obligations.FusesPassAndTrip : Prop :=
  ∀ (s : State) (x : Fin 6) (rd : ChanReading), shoreRuns s = true → s.aux.fuses.length = 6 → s.aux.seqWait = false → s.aux.shed = [] →
    let f := fuseOf s x.val
    let failed := fun (t : State) (st : EfuseState) (cause : BitVec 4) => (fuseOf t x.val).st = st ∧ (fuseOf t x.val).pg = false
      ∧ (fuseOf t x.val).cause = cause ∧ (fuseOf t x.val).req = [] ∧ t.flt.fstat.getLsbD 10 = true ∧ t.lad = s.lad
      ∧ ∀ y, y ≠ x.val → fuseOf t y = fuseOf s y
    (f.st = .preCheck →
      (5 * fusePar s x.val 6 ≤ rd.vin.toNat →
        ∃ t, exec (.efusePrecheckEnd x rd) s = .next t ∧ failed t .damaged 0x6 ∧ f.since + ms 1 ≤ t.clk.now)
      ∧ (rd.vin.toNat < 5 * fusePar s x.val 6 →
        ∃ t, exec (.efusePrecheckEnd x rd) s = .next t ∧ (fuseOf t x.val).st = .ramping ∧ f.since + ms 1 ≤ t.clk.now ∧ t.flt = s.flt
          ∧ (fuseOf t x.val).gateDue = t.clk.now + ms (fusePar s x.val 5)))
    ∧ (f.isOn = true → f.pg = false →
      (∃ t, exec (.efusePowerGood x) s = .next t ∧ (fuseOf t x.val).pg = true ∧ (f.st = .ramping → (fuseOf t x.val).st = .on)
        ∧ (fuseOf t x.val).req = [] ∧ t.clk = s.clk ∧ t.flt = s.flt)
      ∧ ∃ t, exec (.efuseGateWindow x rd) s = .next t ∧ failed t .damaged 0x5 ∧ f.gateDue ≤ t.clk.now)
    ∧ (f.isOn = true →
      (x.val < 4 → ∀ load : Bool, ∃ t, exec (.efuseTrip x load rd) s = .next t ∧ failed t .tripped (if load then 0x2 else 0x1))
      ∧ (4 ≤ x.val → ∃ t, exec (.efuseTrip x false rd) s = .next t ∧ failed t .tripped 0x4))
    ∧ (4 ≤ x.val → exec (.efuseTrip x true rd) s = .next s)
    ∧ (f.isOn = false → ∀ load : Bool, exec (.efuseTrip x load rd) s = .next s)
    ∧ (4 ≤ x.val → (f.st = .on ∨ f.st = .ramping) →
      ∃ t, exec (.efuseCurrentLimit x true) s = .next t ∧ (fuseOf t x.val).st = .limiting ∧ (fuseOf t x.val).limitAt = s.clk.now
        ∧ t = { s with aux := t.aux })
    ∧ (4 ≤ x.val → f.st = .limiting →
      (∃ t, exec (.efuseCurrentLimit x false) s = .next t ∧ (fuseOf t x.val).st = (if f.pg then .on else .ramping) ∧ t = { s with aux := t.aux })
      ∧ ∃ t, exec (.efuseFaultTimer x rd) s = .next t ∧ failed t .tripped 0x3 ∧ f.limitAt + us (100 * fusePar s x.val 3) ≤ t.clk.now)
    ∧ (x.val < 4 → (∀ enter : Bool, exec (.efuseCurrentLimit x enter) s = .next s) ∧ exec (.efuseFaultTimer x rd) s = .next s)

/-- The start sequence, the ordered shutdown, FLT_N and the restart. Rests on 11_aux_power.md. -/
def Obligations.TheSequenceAndFltNAct : Prop :=
  ∀ s : State, shoreRuns s = true → s.aux.rails.length = 4 → s.aux.fuses.length = 6 →
    (∀ high : Bool, seqMayRun s = true → s.aux.seqRun = .starting →
      (s.aux.seqPos = 0 ∨ stepStarting s ((seqList s).getD (s.aux.seqPos - 1) 0) = false) →
      let c := (seqList s).getD s.aux.seqPos 0
      ∃ t, exec (.sequenceStep high) s = .next t ∧ s.aux.seqDue ≤ t.clk.now ∧ t.lad = s.lad
        ∧ (c = 0x00 → t.aux.seqRun = .ended ∧ t.aux.seqPos = s.aux.seqPos ∧ (s.aux.shed = [] → t.aux.rails = s.aux.rails ∧ t.aux.fuses = s.aux.fuses))
        ∧ (c = 0x31 → t.aux.seqOut = true ∧ t.aux.seqPos = s.aux.seqPos + 1)
        ∧ (c = 0x30 → t.aux.seqPos = (if high then s.aux.seqPos + 1 else s.aux.seqPos) ∧ (s.aux.shed = [] → t.aux.rails = s.aux.rails))
        ∧ (c = 0x03 → (railOf s 3).st = .off → (railOf t 3).st = .checking ∧ t.aux.seqPos = s.aux.seqPos + 1)
        ∧ (0x21 ≤ c → c ≤ 0x26 → (fuseOf s (c - 0x21)).st = .off → mayTurnOn s (c - 0x21) = true →
            (fuseOf t (c - 0x21)).st = .preCheck ∧ t.aux.seqPos = s.aux.seqPos + 1)
        ∧ (0x21 ≤ c → c ≤ 0x26 → mayTurnOn s (c - 0x21) = false → (s.aux.shed = [] → t.aux.fuses = s.aux.fuses) ∧ t.aux.seqPos = s.aux.seqPos + 1))
    ∧ (∀ mv : Option Nat, s.aux.seqRun = .shutting → s.aux.seqWait = false →
      let c := (shutList s).getD s.aux.seqPos 0
      let cause : BitVec 4 := if mv.isSome then 0 else 0x9
      ((∃ v, mv = some v ∧ fallen c v s = false) → exec (.orderedShutdownFall mv) s = .next s)
      ∧ ((∀ v, mv = some v → fallen c v s = true) →
        ∃ t, exec (.orderedShutdownFall mv) s = .next t ∧ (t.aux.seqRun = .shutting ∨ t.aux.seqRun = .idle)
          ∧ (t.aux.seqRun = .shutting → t.aux.seqPos < s.aux.seqPos ∨ (t.aux.seqWait = true ∧ t.aux.seqPos ≤ s.aux.seqPos))
          ∧ (mv = none → s.aux.fallAt + ms (s.parN 0x08C5) ≤ t.clk.now)
          ∧ (∀ x, shutRailOf c = some x → (railOf t x).st = .off ∧ (railOf t x).pg = false ∧ (railOf t x).cause = cause)
          ∧ (shutRailOf c = none → (fuseOf s (c - 0x21)).st = .off → c - 0x21 < 6 → (fuseOf t (c - 0x21)).st = .off ∧ (fuseOf t (c - 0x21)).cause = cause)))
    ∧ (∀ at_ : Nat, s.aux.leadDue = some at_ → s.aux.seqRun = .lead →
      ∃ t, exec .seqOutLeadTimeEnd s = .next t ∧ at_ ≤ t.clk.now ∧ t.aux.leadDue = none ∧ (t.aux.seqRun = .shutting ∨ t.aux.seqRun = .idle)
        ∧ ((∀ c ∈ shutList s, shutTarget s c = false) → t.aux.seqRun = .idle ∧ t.aux.rails = s.aux.rails ∧ t.aux.fuses = s.aux.fuses)
        ∧ ((∀ c ∈ [0x10, 0x11, 0x03] ++ seqList s, shutTarget s c = false) → (railOf s 2).st = .regulating → (railOf s 2).pg = true →
            t.aux.seqRun = .idle ∧ (railOf t 2).st = .burst)
        ∧ ((∀ c ∈ seqList s, shutTarget s c = false) → (railOf s 3).st = .regulating → (railOf s 3).pg = true →
            t.aux.seqRun = .shutting ∧ (railOf t 3).st = .shuttingDown ∧ t.aux.fallAt = t.clk.now ∧ t.aux.seqPos = 3)
        ∧ ((∀ c ∈ 0x03 :: seqList s, shutTarget s c = false) → (railOf s 1).st = .regulating → (railOf s 1).pg = true →
            t.aux.seqRun = .shutting ∧ (railOf t 1).st = .shuttingDown ∧ (railOf t 0).st = (railOf s 0).st ∧ t.aux.seqPos = 2))
    ∧ (s.aux.fltExt = false → s.aux.fltOwn = none →
      ∃ t, exec .fltNExternalLow s = .next t ∧ t.aux.fltExt = true ∧ t.aux.restartAt = none ∧ t.lad = s.lad ∧ t.clk = s.clk
        ∧ ∀ x, x < 6 → (s.parN 0x08C3).testBit (x + 1) = true → (fuseOf t x).isOn = false)
    ∧ (s.aux.fltExt = true →
      (s.aux.fltOwn = none → ∃ t, exec .fltNExternalHigh s = .next t ∧ t.aux.fltExt = false
        ∧ t.aux.restartAt = some (s.clk.now + ms (s.parN 0x08C6)))
      ∧ (s.aux.fltOwn ≠ none → ∃ t, exec .fltNExternalHigh s = .next t ∧ t = { s with aux := { s.aux with fltExt := false } }))
    ∧ (∀ at_ : Nat, s.aux.fltOwn = some at_ →
      ∃ t, exec .fltNPulseEnd s = .next t ∧ at_ ≤ t.clk.now ∧ t.aux.fltOwn = none ∧ t.aux.fltExt = s.aux.fltExt
        ∧ (s.aux.fltExt = false → t.aux.restartAt = some (t.clk.now + ms (s.parN 0x08C6)))
        ∧ (s.aux.fltExt = true → ∀ x, x < 6 → (s.parN 0x08C3).testBit (x + 1) = true → (fuseOf t x).isOn = false))
    ∧ (∀ at_ : Nat, s.aux.restartAt = some at_ → fltLow s = false → s.sup.holdup = false →
      ∃ t, exec .fltNRestart s = .next t ∧ at_ ≤ t.clk.now ∧ t.aux.restartAt = none ∧ t.aux.seqPaused = false
        ∧ (stepCodes.any (stepStarting s) = false → ∀ x, x < 6 →
            ((seqList s ++ stepCodes).eraseDups.filter (s.aux.shed ++ s.aux.fltShed).contains).head? = some (fuseCode x) →
            (fuseOf s x).st = .off → mayTurnOn s x = true →
            (fuseOf t x).st = .preCheck
              ∧ ∀ c ∈ ((seqList s ++ stepCodes).eraseDups.filter (s.aux.shed ++ s.aux.fltShed).contains).tail, c ∈ t.aux.shed))

/-- Die temperatures are judged, and safe mode begins and ends (calibration values at reset: log entry 197). Rests on 12_temperature_and_faults.md.
-/
def Obligations.DieTemperaturesAndSafeMode : Prop :=
  ∀ s : State,
    let read := fun (power : Bool) (j n : Nat) => (calOf power j s).centi (countKhz s n)
    let outside := fun (power : Bool) (j n : Nat) => countKhz s n < (calOf power j s).minKhz ∨ (calOf power j s).maxKhz < countKhz s n
    (∀ (j : Fin 12) (n : Nat), (s.clk.pstate = .run ∨ s.clk.pstate = .watch) → s.flt.ctrlOut.getD j.val true = false →
      j.val < s.flt.ctrl.length → j.val < s.flt.ctrlOut.length →
      ∃ t, exec (.dieTempReading false j n) s = .next t ∧ t.flt.ctrl = s.flt.ctrl.set j.val (read false j.val n) ∧ t.flt.power = s.flt.power
        ∧ (outside false j.val n → t.flt.ctrlOut.getD j.val true = true ∧ t.flt.fstat.getLsbD 26 = true)
        ∧ t.flt.ctrlShut = judgeThresh t 0x0102 (ctrlTemp t) s.flt.ctrlShut ∧ t.flt.ctrlThr = judgeThresh t 0x0101 (ctrlTemp t) s.flt.ctrlThr
        ∧ t.flt.ctrlWarn = judgeThresh t 0x0100 (ctrlTemp t) s.flt.ctrlWarn
        ∧ (s.flt.ctrlShut.above = false → t.flt.ctrlShut.above = true → s.flt.safe = false →
            t.flt.safe = true ∧ t.flt.safeAt = s.clk.now ∧ t.flt.fstat.getLsbD 27 = true))
    ∧ (∀ (j : Fin 12) (n : Nat), s.clk.pstate ≠ .off → s.flt.powerOut.getD j.val true = false → j.val < s.flt.power.length →
      s.lad.levels.length = 16 →
      ∃ t, exec (.dieTempReading true j n) s = .next t ∧ t.flt.power = s.flt.power.set j.val (read true j.val n) ∧ t.flt.ctrl = s.flt.ctrl
        ∧ t.flt.powShut = judgeThresh t 0x0102 (powTemp t) s.flt.powShut
        ∧ (s.flt.powShut.above = false → t.flt.powShut.above = true → t.flt.fstat.getLsbD 31 = true ∧ t.lad.oos = true
            ∧ ∀ k, k < 16 → present s k = true → (lvl t k).st = .parked ∨ (lvl t k).st = .retired))
    ∧ (∀ (j : Fin 12) (n : Nat), (s.clk.pstate = .off ∨ s.clk.pstate = .still) → exec (.dieTempReading false j n) s = .next s)
    ∧ (∀ (power : Bool) (j : Fin 12) (n : Nat), sensorOut power j.val s = true → exec (.dieTempReading power j n) s = .next s)
    ∧ (∀ at_ : Nat, s.flt.safe = true → s.eng.coolSince = some at_ →
      ∃ t, exec .safeModeExit s = .next t ∧ t.flt.safe = false ∧ at_ + sec 1 ≤ t.clk.now ∧ t.lad = s.lad ∧ t.flt.fstat = s.flt.fstat)
    ∧ (s.flt.safe = true → atShutdown s = true → s.flt.fatalSrc ≠ some 27 →
      ∃ t, exec .safeModeTimeout s = .next t ∧ s.flt.safeAt + sec 10 ≤ t.clk.now ∧ t.flt.fstat.getLsbD 31 = true ∧ t.flt.fstat.getLsbD 27 = true
        ∧ t.lad.oos = true)
    ∧ (s.flt.safe = false → exec .safeModeTimeout s = .next s ∧ exec .safeModeExit s = .next s)

/-- Fault events latch their bit, count towards severe, and are fatal by their grade. Rests on 12_temperature_and_faults.md. -/
def Obligations.FaultsAreLatchedGradedAndEnd : Prop :=
  ∀ s : State, s.flt.sources.length = 32 →
    (∀ (b : Fin 32) (g : Grade) (k : Option Lvl) (line : EngineLine), eventBit b.val = true → b.val ≠ 16 →
      ∃ t, exec (.faultEvent b g k line) s = .next t ∧ t.flt.fstat.getLsbD b.val = true
        ∧ (∀ i, s.flt.fstat.getLsbD i = true → t.flt.fstat.getLsbD i = true)
        ∧ (sourceGrade b.val g = .fatal → t.flt.fstat.getLsbD 31 = true ∧ t.lad.oos = true ∧ t.lad.adm = .out)
        ∧ (sourceGrade b.val g ≠ .fatal → t.lad.levels = s.lad.levels ∧ t.lad.adm = s.lad.adm ∧ t.lad.oos = s.lad.oos)
        ∧ (b.val ≠ 12 → (sourceGrade b.val g = .corrected ∨ sourceGrade b.val g = .contained) →
            (sourceRec t b.val).events = windowEvents s b.val ++ [s.clk.now]
            ∧ ((sourceRec t b.val).severe = true ↔ ((sourceRec s b.val).severe = true ∨
                s.parN (0x0140 + b.val) ≤ (windowEvents s b.val).length + 1))))
    ∧ (∀ (g : Grade) (k : Option Lvl) (line : EngineLine),
      ∃ t, exec (.faultEvent 16 g k line) s = .next t ∧ t.flt.fstat.getLsbD 16 = true ∧ t.lad = s.lad
        ∧ (line = .sequencer → t.eng.stopped = true ∧ t.eng.restartAt = s.clk.now + sec 1 ∧ ∀ r ∈ t.eng.tiles, r.stepping = false))
    ∧ (∀ (b : Fin 32) (g : Grade) (k : Option Lvl) (line : EngineLine), eventBit b.val = false → exec (.faultEvent b g k line) s = .next s)
    ∧ (∀ b : Fin 32, (sourceRec s b.val).severe = true →
      ∃ t, exec (.severeEnd b) s = .next t ∧ (sourceRec t b.val).severe = false ∧ severeEndAt s b.val ≤ t.clk.now
        ∧ t.flt.fstat = s.flt.fstat ∧ t.lad = s.lad)
    ∧ (∀ b : Fin 32, (sourceRec s b.val).severe = false → exec (.severeEnd b) s = .next s)
    ∧ (∀ (id : Byte) (i : Injection) (at_ : Nat), s.flt.injections.find? (·.id == id) = some i → i.ends = some at_ →
      ∃ t, exec (.injectionEnd id) s = .next t ∧ at_ ≤ t.clk.now ∧ t.flt.injections = s.flt.injections.filter (·.id != id)
        ∧ t.flt.fstat = s.flt.fstat)
    ∧ (∀ id : Byte, (s.flt.injections.find? (·.id == id)).all (fun i => i.ends.isNone) = true → exec (.injectionEnd id) s = .next s)

/-- The debug port reads registers and storage, halts, resumes, and forces a halt in Returned. Rests on 18_counters_trace_debug.md,
16_security_lifecycle_update.md. -/
def Obligations.TheDebugPortReadsAndHalts : Prop :=
  ∀ s : State,
    (debugOpen s = true →
      (∀ (a : BitVec 7) (n : Nat), ∃ t, exec (.debugRead (.register a) n) s = .next t
        ∧ t = { s with dbg := { s.dbg with data := registerBytes s a.toNat n } })
      ∧ (∀ n : Nat, ∃ t, exec (.debugRead .rspwin n) s = .next t ∧ t = { s with dbg := { s.dbg with data := windowBytes .host 0 n s } })
      ∧ (∀ n : Nat, ∃ t, exec (.debugRead .status n) s = .next t ∧ t = { s with dbg := { s.dbg with data := (bvBytes 4 (debugWord s)).take n } })
      ∧ (∀ n : Nat, ∃ t, exec (.debugRead .refusals n) s = .next t ∧ t = { s with dbg := { s.dbg with data := (refusalLog s).take n } })
      ∧ (∀ (a : BitVec 23) (n : Nat), s.flt.injections = [] → (∀ i, i < n → s.nv.badPages.contains ((a.toNat + i) / 256) = false) →
        ∃ t, exec (.debugRead (.mram a) n) s = .next t ∧ t = { s with dbg := { s.dbg with data := t.dbg.data }, free := s.free + 1 }
          ∧ t.dbg.data.length = n ∧ ∀ i b, i < n → mramByte s (a.toNat + i) = some b → t.dbg.data.getD i 0 = b)
      ∧ (∀ (cp lp : Bool) (k : BitVec 2), (cp || lp) = true → s.dbg.lock = 0 → (k = 0 ∨ processorRuns s = false) →
        ∃ t, exec (.debugHalt cp lp k) s = .next t ∧ t = { s with dbg := t.dbg } ∧ t.dbg.pend = none
          ∧ (isAdmitted s = true → t.dbg.haltedCp = true ∧ t.dbg.haltedLp = s.dbg.haltedLp)
          ∧ (isAdmitted s = false → t.dbg.haltedCp = (s.dbg.haltedCp || cp) ∧ t.dbg.haltedLp = (s.dbg.haltedLp || lp)))
      ∧ (∀ (cp lp : Bool) (k : BitVec 2), (cp || lp) = true → (s.dbg.lock ≠ 0 ∨ (k ≠ 0 ∧ processorRuns s = true)) →
        ∃ t, exec (.debugHalt cp lp k) s = .next t ∧ t = { s with dbg := { s.dbg with lock := t.dbg.lock, pend := t.dbg.pend } }
          ∧ t.dbg.lock ≠ 0 ∧ t.dbg.pend.isSome = true)
      ∧ (∃ t, exec (.debugResume true true) s = .next t ∧ t.dbg.haltedCp = false ∧ t.dbg.haltedLp = false ∧ t.dbg.forced = false
        ∧ t.dbg.pend = none ∧ t.clk.cpService = s.clk.now ∧ (s.dbg.forced = false → t.lad = s.lad)
        ∧ (s.dbg.forced = true → s.clk.inReset = none → s.lad.parkRun = .none → t.lad.freezeAt = none ∧ ∀ l ∈ t.lad.levels, l.frozen = false ∨ s.lad.freezeAt = none))
      ∧ (∃ t, exec (.debugResume true false) s = .next t ∧ t.dbg.haltedCp = false ∧ t.dbg.haltedLp = s.dbg.haltedLp
        ∧ ((s.dbg.forced = false ∨ s.dbg.haltedLp = true) → t.lad = s.lad)))
    ∧ (debugOpen s = false →
      (∀ (d : DebugTarget) (n : Nat), ∃ t, exec (.debugRead d n) s = .next t ∧ t = { s with dbg := { s.dbg with data := [] } })
      ∧ ∀ (cp lp : Bool) (k : BitVec 2), exec (.debugHalt cp lp k) s = .next s ∧ exec (.debugResume cp lp) s = .next s ∧ exec .forcedHalt s = .next s)
    ∧ (∀ cp lp : Bool, s.dbg.pend = some (cp, lp) → isAdmitted s = false →
      ∃ t, exec .haltPendingRelease s = .next t ∧ t = { s with dbg := t.dbg } ∧ t.dbg.lock = 0 ∧ t.dbg.pend = none
        ∧ t.dbg.haltedCp = (s.dbg.haltedCp || cp) ∧ t.dbg.haltedLp = (s.dbg.haltedLp || lp))
    ∧ (debugOpen s = true → s.key.life = .returned →
      ∃ t, exec .forcedHalt s = .next t ∧ t.dbg.haltedCp = true ∧ t.dbg.haltedLp = true ∧ t.dbg.forced = true ∧ t.lad.freezeAt ≠ none
        ∧ t.mod.vcmd = s.mod.vcmd ∧ t.clk = s.clk)
    ∧ (s.key.life ≠ .returned → exec .forcedHalt s = .next s)
end

