-- ==== Sys2Proof/Laws/Bytes.lean ====
section
/-! SUPPORT. Lengths of byte strings and the round trip between a number and its bytes. -/

namespace Sys2Proof.Machine

@[simp] theorem leBytes_length (n v : Nat) : (leBytes n v).length = n := by
  induction n generalizing v with
  | zero => rfl
  | succ n ih => simp [leBytes, ih]

@[simp] theorem bvBytes_length {w : Nat} (n : Nat) (v : BitVec w) : (bvBytes n v).length = n := leBytes_length _ _

@[simp] theorem leInt_length (n : Nat) (v : Int) : (leInt n v).length = n := leBytes_length _ _

@[simp] theorem beBytes_length (n v : Nat) : (beBytes n v).length = n := by simp [beBytes]

@[simp] theorem bytesAt_length (bs : List Byte) (o n : Nat) : (bytesAt bs o n).length = n := by simp [bytesAt]

@[simp] theorem fitBytes_length (n : Nat) (bs : List Byte) : (fitBytes n bs).length = n := bytesAt_length _ _ _

theorem bytesAt_eq (bs cs ds : List Byte) {o n : Nat} (ho : bs.length = o) (hn : cs.length = n) : bytesAt (bs ++ cs ++ ds) o n = cs := by
  subst ho hn
  refine List.ext_getElem (bytesAt_length _ _ _) fun i h h' => ?_
  have e : (bytesAt (bs ++ cs ++ ds) bs.length cs.length)[i] = (bs ++ cs ++ ds).getD (bs.length + i) 0 := by
    simp only [bytesAt, List.getElem_map, List.getElem_range]
  rw [e, List.getD_eq_getElem?_getD, List.append_assoc, List.getElem?_append_right (by omega),
    Nat.add_sub_cancel_left, List.getElem?_append_left h', List.getElem?_eq_getElem h', Option.getD_some]

/-- A string of the right length is kept as it is. -/
theorem fitBytes_eq {n : Nat} {bs : List Byte} (h : bs.length = n) : fitBytes n bs = bs := by
  simpa [fitBytes] using bytesAt_eq [] bs [] rfl h

theorem leNat_lt (bs : List Byte) : leNat bs < 256 ^ bs.length := by
  induction bs with
  | nil => decide
  | cons b bs ih => have := b.isLt; simp only [leNat, List.length_cons, Nat.pow_succ]; omega

/-- The bytes of the number that a string stands for are the string (R6). -/
theorem leBytes_leNat (bs : List Byte) : leBytes bs.length (leNat bs) = bs := by
  induction bs with
  | nil => rfl
  | cons b bs ih =>
    have := b.isLt
    have h1 : (b.toNat + 256 * leNat bs) / 256 = leNat bs := by omega
    simp [leBytes, leNat, h1, ih]
    apply BitVec.eq_of_toNat_eq; simp; omega

/-- The number of the n low bytes of v is v when they hold it (R6). -/
theorem leNat_leBytes (n v : Nat) (h : v < 256 ^ n) : leNat (leBytes n v) = v := by
  induction n generalizing v with
  | zero => simp at h; simp [leBytes, leNat, h]
  | succ n ih =>
    have : v / 256 < 256 ^ n := by rw [Nat.pow_succ] at h; exact Nat.div_lt_of_lt_mul (by omega)
    simp [leBytes, leNat, ih _ this]; omega

end Sys2Proof.Machine
end

