-- ==== Sys2Proof/Laws/Crypto.lean ====
section
/-! SUPPORT. What the algorithms of Table 16-4 give back has the length the spec states. -/

namespace Sys2Proof.Machine

theorem foldl_length {α β : Type} (f : List α → β → List α) (n : Nat) (hf : ∀ l b, l.length = n → (f l b).length = n) (l : List α) (bs : List β)
    (h : l.length = n) : (bs.foldl f l).length = n := by
  induction bs generalizing l with
  | nil => exact h
  | cons b bs ih => exact ih _ (hf l b h)

theorem shaRound_length (h : List (BitVec 32)) (kw : BitVec 32) (e : h.length = 8) : (shaRound h kw).length = 8 := by
  unfold shaRound; split
  · rfl
  · exact e

theorem shaBlock_length (h : List (BitVec 32)) (blk : List Byte) (e : h.length = 8) : (shaBlock h blk).length = 8 := by
  simp only [shaBlock, List.length_zipWith, foldl_length shaRound 8 shaRound_length _ _ e, e, Nat.min_self]

theorem shaInit_length : shaInit.length = 8 := by
  simp only [shaInit, List.length_map]; decide +kernel

@[simp] theorem sha256_length (m : List Byte) : (sha256 m).length = 32 := by
  have h : ∀ l : List (BitVec 32), (l.flatMap fun w => beBytes 4 w.toNat).length = 4 * l.length := fun l => by
    induction l with
    | nil => rfl
    | cons a l ih => simp only [List.flatMap_cons, List.length_append, beBytes_length, List.length_cons, ih]; omega
  rw [sha256, h, foldl_length _ 8 (fun h i e => shaBlock_length h _ e) _ _ shaInit_length]

@[simp] theorem hmac_length (key m : List Byte) : (hmac key m).length = 32 := sha256_length _

theorem nextKey_length (rcon : Byte) (k : List Byte) : (nextKey rcon k).length = 16 := by simp [nextKey]

theorem aesRounds_length (n : Nat) (rcon : Byte) (k s : List Byte) (h : s.length = 16) : (aesRounds n rcon k s).length = 16 := by
  induction n generalizing rcon k s with
  | zero => exact h
  | succ n ih =>
    apply ih; rw [List.length_zipWith, nextKey_length]
    split <;> simp [subShift, mixColumns]

@[simp] theorem aes128_length (key blk : List Byte) (hk : key.length = 16) (hb : blk.length = 16) : (aes128 key blk).length = 16 :=
  aesRounds_length _ _ _ _ (by simp [hk, hb])

theorem gcmTag_length (key iv aad ct : List Byte) (hk : key.length = 16) : (gcmTag key iv aad ct).length = 16 := by
  simp [gcmTag, aes128_length key (gcmCounter iv 1) hk (by simp [gcmCounter])]

end Sys2Proof.Machine
end

