-- ==== Sys2Proof/Laws/Frames.lean ====
section
/-! SUPPORT. What the seal of a frame covers (R233, R234), and the lengths of keys and digests. -/

namespace Sys2Proof.Machine

/-- The TAG does not cover TURNED, HOPS, itself, the CRC or the end of the frame (R234). -/
theorem frameTag_sealed (key : List Byte) (t : Nat) (ty : BitVec 4) (tu tu' e e' : Bool) (src h h' len : Byte) (ttx c c' : BitVec 32)
    (tag tag' : BitVec 64) (body : List Byte) :
    frameTag key ⟨ty, tu, src, h, len, ttx, body, tag, c, e⟩ t = frameTag key ⟨ty, tu', src, h', len, ttx, body, tag', c', e'⟩ t := by
  rfl

/-- The time of a frame does not depend on its seal (R234). -/
theorem frameTime_sealed (s : State) (ty : BitVec 4) (tu tu' e e' : Bool) (src h h' len : Byte) (ttx c c' : BitVec 32) (tag tag' : BitVec 64)
    (body : List Byte) :
    frameTime s ⟨ty, tu, src, h, len, ttx, body, tag, c, e⟩ = frameTime s ⟨ty, tu', src, h', len, ttx, body, tag', c', e'⟩ := by
  rfl

/-- The CRC does not cover itself nor the end of the frame (R233). -/
theorem frameCrc_crc (ty : BitVec 4) (tu e e' : Bool) (src h len : Byte) (ttx c c' : BitVec 32) (tag : BitVec 64) (body : List Byte) :
    frameCrc ⟨ty, tu, src, h, len, ttx, body, tag, c, e⟩ = frameCrc ⟨ty, tu, src, h, len, ttx, body, tag, c', e'⟩ := by
  rfl

@[simp] theorem digestOf_length (set : List ParamRec) : (digestOf set).length = 8 := by simp [digestOf]

@[simp] theorem portOf_modPort (p : Port) (f : PortS → PortS) (s : State) : portOf (modPort p f s) p = f (portOf s p) := by cases p <;> rfl

@[simp] theorem portOf_modPort_other (p : Port) (f : PortS → PortS) (s : State) : portOf (modPort p f s) (otherPort p) = portOf s (otherPort p) := by
  cases p <;> rfl

@[simp] theorem otherPort_otherPort (p : Port) : otherPort (otherPort p) = p := by cases p <;> rfl

end Sys2Proof.Machine
end

