-- ==== Sys2Proof/Laws/Ops.lean ====
section
/-! SUPPORT. What each shared operation can do: the areas of the state it leaves, and what it leaves in the record it changes. -/

namespace Sys2Proof.Machine

/-! Records in their lists -/

/-- The record at a position after a change of the record at k. -/
theorem getD_modify {α : Type} (l : List α) (k j : Nat) (f : α → α) (d : α) (h : j < l.length) :
    (l.modify k f).getD j d = if j = k then f (l.getD j d) else l.getD j d := by
  simp only [List.getD_eq_getElem?_getD, List.getElem?_modify, List.getElem?_eq_getElem h, Option.getD_some]
  by_cases e : k = j
  · simp [e]
  · simp [e, Ne.symm e]

/-- A change at k leaves the record at every other position, in the list or not. -/
theorem getD_modify_ne {α : Type} (l : List α) {k j : Nat} (f : α → α) (d : α) (h : j ≠ k) : (l.modify k f).getD j d = l.getD j d := by
  simp only [List.getD_eq_getElem?_getD, List.getElem?_modify, if_neg (Ne.symm h)]
  cases l[j]? <;> rfl

@[simp] theorem mapLvl_length {α β : Type} (l : List α) (f : Nat → α → β) : (mapLvl l f).length = l.length := by simp [mapLvl]

/-- The record at a position after a change of every record. -/
theorem getD_mapLvl {α β : Type} (l : List α) (f : Nat → α → β) {k : Nat} (d : α) (e : β) (h : k < l.length) :
    (mapLvl l f).getD k e = f k (l.getD k d) := by
  simp [mapLvl, List.getD_eq_getElem?_getD, h]

/-! Levels -/

theorem lvl_modLevel (s : State) (k j : Nat) (f : Level → Level) (h : j < s.lad.levels.length) :
    lvl (modLevel k f s) j = if j = k then f (lvl s j) else lvl s j := getD_modify _ _ _ _ _ h

theorem lvl_modLevel_ne (s : State) {k j : Nat} (f : Level → Level) (h : j ≠ k) : lvl (modLevel k f s) j = lvl s j := getD_modify_ne _ _ _ h

theorem lvl_mapLevels (s : State) (f : Nat → Level → Level) {k : Nat} (h : k < s.lad.levels.length) : lvl (mapLevels f s) k = f k (lvl s k) :=
  getD_mapLvl _ _ _ _ h

@[simp] theorem modLevel_length (k : Nat) (f : Level → Level) (s : State) : (modLevel k f s).lad.levels.length = s.lad.levels.length := by
  simp [modLevel]

@[simp] theorem mapLevels_length (f : Nat → Level → Level) (s : State) : (mapLevels f s).lad.levels.length = s.lad.levels.length := by
  simp [mapLevels]

/-- A park leaves a level parked with its insert gate off, or retired as it was. -/
theorem Level.park_st (cause : BitVec 4) (l : Level) :
    (l.park cause).st = .parked ∨ ((l.park cause) = l ∧ l.st = .retired) := by
  unfold Level.park
  split
  · rename_i h
    rcases Bool.or_eq_true _ _ ▸ h with h | h
    · exact .inr ⟨rfl, by simpa using h⟩
    · exact .inl (by simpa using h)
  · exact .inl rfl

/-- No change of a level's state turns on both its gates. -/
theorem Level.park_gates (cause : BitVec 4) (l : Level) (h : ¬(l.insGate = true ∧ l.bypGate = true)) :
    ¬((l.park cause).insGate = true ∧ (l.park cause).bypGate = true) := by
  unfold Level.park; split
  · exact h
  · simp

theorem Level.bypass_gates (l : Level) (h : ¬(l.insGate = true ∧ l.bypGate = true)) : ¬(l.bypass.insGate = true ∧ l.bypass.bypGate = true) := by
  unfold Level.bypass; split
  · exact h
  · simp

/-! Channels -/

theorem railOf_modRail (s : State) (x y : Nat) (f : Rail → Rail) (h : y < s.aux.rails.length) :
    railOf (modRail x f s) y = if y = x then f (railOf s y) else railOf s y := getD_modify _ _ _ _ _ h

theorem railOf_modRail_ne (s : State) {x y : Nat} (f : Rail → Rail) (h : y ≠ x) : railOf (modRail x f s) y = railOf s y := getD_modify_ne _ _ _ h

theorem fuseOf_modFuse (s : State) (x y : Nat) (f : Efuse → Efuse) (h : y < s.aux.fuses.length) :
    fuseOf (modFuse x f s) y = if y = x then f (fuseOf s y) else fuseOf s y := getD_modify _ _ _ _ _ h

theorem fuseOf_modFuse_ne (s : State) {x y : Nat} (f : Efuse → Efuse) (h : y ≠ x) : fuseOf (modFuse x f s) y = fuseOf s y := getD_modify_ne _ _ _ h

/-! Time, counters and fault bits -/

@[simp] theorem elapse_now (dt : Nat) (s : State) : (elapse dt s).clk.now = s.clk.now + dt := rfl

/-- An event with a due time comes at that time or later, and never back in time. -/
theorem advanceTo_now (t : Nat) (s : State) : (advanceTo t s).clk.now = max s.clk.now t := by
  rw [advanceTo, elapse_now]; omega

@[simp] theorem count_counters (c : Nat) (s : State) : (count c s).cnt.counters = s.cnt.counters.modify c (· + 1) := rfl

@[simp] theorem latch_bit (b i : Nat) (s : State) (h : i < 32) :
    (latch b s).flt.fstat.getLsbD i = (s.flt.fstat.getLsbD i || decide (i = b)) := by
  simp only [latch, BitVec.getLsbD_or, BitVec.getLsbD_ofNat, h, decide_true, Bool.true_and, Nat.testBit_two_pow, eq_comm]

/-! What each operation leaves -/

theorem takeFree_frame (s : State) :
    (takeFree s).2 = { s with free := (takeFree s).2.free } := rfl

theorem modLevel_frame (k : Nat) (f : Level → Level) (s : State) :
    modLevel k f s = { s with lad := (modLevel k f s).lad } := rfl

theorem mapLevels_frame (f : Nat → Level → Level) (s : State) :
    mapLevels f s = { s with lad := (mapLevels f s).lad } := rfl

theorem closeBypass_frame (s : State) :
    closeBypass s = { s with lad := (closeBypass s).lad } := by
  unfold closeBypass; (repeat' split) <;> rfl

theorem settlePhase_frame (s : State) :
    settlePhase s = { s with mod := (settlePhase s).mod } := by
  unfold settlePhase; (repeat' split) <;> rfl

theorem openBypass_frame (s : State) :
    openBypass s = { s with lad := (openBypass s).lad, mod := (openBypass s).mod } := by
  unfold openBypass; rw [settlePhase_frame]

theorem enforceBypass_frame (s : State) :
    enforceBypass s = { s with lad := (enforceBypass s).lad, mod := (enforceBypass s).mod } := by
  unfold enforceBypass; split
  · exact openBypass_frame s
  · rfl

theorem dropTrim_frame (s : State) :
    dropTrim s = { s with mod := (dropTrim s).mod } := rfl

theorem parkLevel_frame (k : Nat) (cause : BitVec 4) (s : State) :
    parkLevel k cause s = { s with lad := (parkLevel k cause s).lad, mod := (parkLevel k cause s).mod } := rfl

theorem endAdmission_frame (s : State) :
    endAdmission s = { s with lad := (endAdmission s).lad, mod := (endAdmission s).mod } := rfl

theorem parkAll_frame (cause : BitVec 4) (s : State) :
    parkAll cause s = { s with lad := (parkAll cause s).lad, mod := (parkAll cause s).mod } := rfl

theorem elapse_frame (dt : Nat) (s : State) :
    elapse dt s = { s with clk := (elapse dt s).clk, nv := (elapse dt s).nv } := rfl

theorem advanceTo_frame (t : Nat) (s : State) :
    advanceTo t s = { s with clk := (advanceTo t s).clk, nv := (advanceTo t s).nv } := rfl

theorem advanceRing_frame (t : Nat) (s : State) :
    advanceRing t s = { s with clk := (advanceRing t s).clk, nv := (advanceRing t s).nv } := rfl

theorem modRail_frame (x : Nat) (f : Rail → Rail) (s : State) :
    modRail x f s = { s with aux := (modRail x f s).aux } := rfl

theorem modFuse_frame (x : Nat) (f : Efuse → Efuse) (s : State) :
    modFuse x f s = { s with aux := (modFuse x f s).aux } := rfl

theorem countBy_frame (c : Nat) (n : Nat) (s : State) :
    countBy c n s = { s with cnt := (countBy c n s).cnt } := rfl

theorem count_frame (c : Nat) (s : State) :
    count c s = { s with cnt := (count c s).cnt } := rfl

theorem histAdd_frame (h : Nat) (v : Nat) (s : State) :
    histAdd h v s = { s with cnt := (histAdd h v s).cnt } := rfl

theorem histFree_frame (h : Nat) (s : State) :
    histFree h s = { s with cnt := (histFree h s).cnt, free := (histFree h s).free } := rfl

theorem latch_frame (b : Nat) (s : State) :
    latch b s = { s with flt := (latch b s).flt } := rfl

theorem putRecordAt_frame (rt : Nat) (kind : Byte) (source : Byte) (inj : Bool) (payload : List Byte) (s : State) :
    putRecordAt rt kind source inj payload s = { s with flt := (putRecordAt rt kind source inj payload s).flt, nv := (putRecordAt rt kind source inj payload s).nv, cnt := (putRecordAt rt kind source inj payload s).cnt } := by
  unfold putRecordAt; dsimp only; (repeat' split) <;> rfl

theorem setActive_frame (r : JRegion) (s : State) :
    setActive r s = { s with nv := (setActive r s).nv } := by
  unfold setActive; (repeat' split) <;> rfl

theorem startCompaction_frame (s : State) :
    startCompaction s = { s with nv := (startCompaction s).nv } := by
  unfold startCompaction; (repeat' split) <;> rfl

theorem modMail_frame (mb : Mailbox) (f : MailS → MailS) (s : State) :
    modMail mb f s = { s with host := (modMail mb f s).host } := rfl

theorem mapMail_frame (f : MailS → MailS) (s : State) :
    mapMail f s = { s with host := (mapMail f s).host } := rfl

theorem pushEntry_frame (mb : Mailbox) (e : Entry) (s : State) :
    pushEntry mb e s = { s with host := (pushEntry mb e s).host } := rfl

theorem answer_frame (req : Req) (op : Nat) (status : Byte) (fields : List Byte) (s : State) :
    answer req op status fields s = { s with host := (answer req op status fields s).host, cnt := (answer req op status fields s).cnt, free := (answer req op status fields s).free } := rfl

theorem accept_frame (req : Req) (op : Nat) (status : Byte) (args : List Byte) (s : State) :
    accept req op status args s = { s with host := (accept req op status args s).host } := rfl

theorem finish_frame (req : Req) (status : Byte) (fields : List Byte) (s : State) :
    finish req status fields s = { s with host := (finish req status fields s).host } := rfl

theorem finishOpt_frame (req : Option Req) (status : Byte) (fields : List Byte) (s : State) :
    finishOpt req status fields s = { s with host := (finishOpt req status fields s).host } := by
  unfold finishOpt; (repeat' split) <;> rfl

theorem refuse_frame (req : Req) (op : Nat) (why : RefusalCause) (s : State) :
    refuse req op why s = { s with host := (refuse req op why s).host } := rfl

theorem reply_frame (req : Req) (op : Nat) (fields : State → List Byte) (s : State) :
    reply req op fields s = { s with host := (reply req op fields s).host, cnt := (reply req op fields s).cnt, free := (reply req op fields s).free } := rfl

theorem modSource_frame (b : Nat) (f : Source → Source) (s : State) :
    modSource b f s = { s with flt := (modSource b f s).flt } := rfl

theorem assertFlt_frame (maskBit : Nat) (s : State) :
    assertFlt maskBit s = { s with aux := (assertFlt maskBit s).aux } := by
  unfold assertFlt; (repeat' split) <;> rfl

theorem initTiles_frame (s : State) :
    initTiles s = { s with eng := (initTiles s).eng, free := (initTiles s).free } := rfl

theorem withdrawTile_frame (k : Nat) (s : State) :
    withdrawTile k s = { s with eng := (withdrawTile k s).eng, free := (withdrawTile k s).free } := by
  unfold withdrawTile; dsimp only; (repeat' split) <;> rfl

end Sys2Proof.Machine
end

