-- ==== Sys2Proof/Laws/Mailbox.lean ====
section
/-! SUPPORT. What a mailbox keeps and gets: the checks a served request passes, the entries pushed, the fields a push leaves; and that a raise only sets fault bits. -/

namespace Sys2Proof.Machine

@[simp] theorem histFree_host (h : Nat) (s : State) : (histFree h s).host = s.host := rfl
@[simp] theorem histFree_flt (h : Nat) (s : State) : (histFree h s).flt = s.flt := rfl
@[simp] theorem count_host (c : Nat) (s : State) : (count c s).host = s.host := rfl
@[simp] theorem count_flt (c : Nat) (s : State) : (count c s).flt = s.flt := rfl
@[simp] theorem withdrawTile_flt (k : Nat) (s : State) : (withdrawTile k s).flt = s.flt := congrArg (·.flt) (withdrawTile_frame k s)
@[simp] theorem parkLevel_flt (k : Nat) (c : BitVec 4) (s : State) : (parkLevel k c s).flt = s.flt := rfl
@[simp] theorem parkAll_flt (c : BitVec 4) (s : State) : (parkAll c s).flt = s.flt := rfl
@[simp] theorem countBy_flt (c n : Nat) (s : State) : (countBy c n s).flt = s.flt := rfl


/-- A command whose port conditions hold runs its body. -/
theorem runCommand_serves {req op r body s} (h : Serves req r s) : runCommand req op r body s = body s := by
  obtain ⟨⟨h1, h2⟩, h3, h4, h5, h6, h7⟩ := h
  have a1 : ¬ sessionCode s req.mb < Access.code req.level := by omega
  have a2 : ¬ Access.code req.level < Access.code r.least := by omega
  have a4 : ¬ (s.flt.safe = true ∧ r.least ≠ .monitor) := by rintro ⟨a, b⟩; exact b (h4 a)
  have a5 : ¬ (s.clk.pstate = .watch ∧ r.watch = true) := by rintro ⟨a, b⟩; simp [h5 a] at b
  have a6 : ¬ (r.leader = true ∧ s.rack.wellhead = false) := by rintro ⟨a, b⟩; simp [h6 a] at b
  have a7 : ¬ (r.nv = true ∧ (nvRefusal s).isSome = true) := by rintro ⟨a, b⟩; simp [h7 a] at b
  simp [runCommand, runChecked, a1, a2, h3, a4, a5, a6, a7]

/-- The same with its length and value conditions. -/
theorem runChecked_serves {req op r l v body s} (h : Serves req r s) (hl : l = true) (hv : v = true) :
    runChecked req op r l v body s = body s := by
  subst hl hv; exact runCommand_serves h

/-- The mailbox changed. -/
theorem mail_modMail {s : State} (h : s.host.mail.length = 4) (mb f) : mail (modMail mb f s) mb = f (mail s mb) := by
  have : Mailbox.idx mb < s.host.mail.length := by rw [h]; cases mb <;> decide
  simp [mail, modMail, List.getD_eq_getElem?_getD, List.getElem?_eq_getElem this]

theorem idx_inj {a b : Mailbox} (h : Mailbox.idx a = Mailbox.idx b) : a = b := by cases a <;> cases b <;> simp_all [Mailbox.idx]

/-- Every other mailbox is as before. -/
theorem mail_modMail_ne {s : State} {mb mb' f} (h : mb' ≠ mb) : mail (modMail mb f s) mb' = mail s mb' := by
  have : Mailbox.idx mb ≠ Mailbox.idx mb' := fun e => h (idx_inj e).symm
  simp [mail, modMail, List.getD_eq_getElem?_getD, this]

@[simp] theorem mail_histFree (h s mb) : mail (histFree h s) mb = mail s mb := by simp [mail]

/-- With room in the queue, a response goes in whole. -/
theorem answer_replied {req op st f s} (h : Room req.mb s) : Replied req op st f s (answer req op st f s) := by
  obtain ⟨h1, h2, h3⟩ := h
  simp [Replied, answer, pushEntry, mail_modMail h1, h2, h3]

theorem replied_of_mail {req op st f s s' t} (h : Replied req op st f s' t) (e : (mail s' req.mb).rspQ = (mail s req.mb).rspQ) : Replied req op st f s t := by
  unfold Replied at *; rw [h, e]

@[simp] theorem answer_mail_ne {req op st f s mb} (h : mb ≠ req.mb) : mail (answer req op st f s) mb = mail s mb := by
  simp [answer, pushEntry, mail_modMail_ne h]

theorem Room.of_host {mb s t} (h : Room mb s) (e : t.host.mail = s.host.mail) : Room mb t := by
  simpa [Room, mail, e] using h

@[simp] theorem modMail_gates (mb f s) : (modMail mb f s).host.gates = s.host.gates := rfl

@[simp] theorem pushEntry_gates (mb e s) : (pushEntry mb e s).host.gates = s.host.gates := rfl

@[simp] theorem answer_gates (req op st f s) : (answer req op st f s).host.gates = s.host.gates := by simp [answer]

@[simp] theorem refuse_gates (req op why s) : (refuse req op why s).host.gates = s.host.gates := rfl

@[simp] theorem modMail_restart (mb f s) : (modMail mb f s).host.restart = s.host.restart := rfl

@[simp] theorem pushEntry_restart (mb e s) : (pushEntry mb e s).host.restart = s.host.restart := rfl

@[simp] theorem answer_restart (req op st f s) : (answer req op st f s).host.restart = s.host.restart := by simp [answer]

@[simp] theorem refuse_restart (req op why s) : (refuse req op why s).host.restart = s.host.restart := rfl

@[simp] theorem modMail_running (mb f s) : (modMail mb f s).host.running = s.host.running := rfl

@[simp] theorem pushEntry_running (mb e s) : (pushEntry mb e s).host.running = s.host.running := rfl

@[simp] theorem answer_running (req op st f s) : (answer req op st f s).host.running = s.host.running := by simp [answer]

@[simp] theorem refuse_running (req op why s) : (refuse req op why s).host.running = s.host.running := rfl

@[simp] theorem modMail_turn (mb f s) : (modMail mb f s).host.turn = s.host.turn := rfl

@[simp] theorem pushEntry_turn (mb e s) : (pushEntry mb e s).host.turn = s.host.turn := rfl

@[simp] theorem answer_turn (req op st f s) : (answer req op st f s).host.turn = s.host.turn := by simp [answer]

@[simp] theorem refuse_turn (req op why s) : (refuse req op why s).host.turn = s.host.turn := rfl

/-- With room, an accepted status goes in and the request becomes one running. -/
theorem accept_accepted {req op st args s} (h : Room req.mb s) : Accepted req op st s (accept req op st args s) := by
  obtain ⟨h1, h2, h3⟩ := h
  refine ⟨?_, args, ?_⟩
  · have := mail_modMail (s := s) h1 req.mb (fun m => if m.rspQ.length < 8 ∧ m.held = [] then { m with rspQ := m.rspQ ++ [response req op false st []] } else { m with held := m.held ++ [response req op false st []] })
    simp only [h2, h3] at this
    change (mail (pushEntry req.mb (response req op false st []) s) req.mb).rspQ = _
    rw [pushEntry, this]; simp
  · simp only [accept, pushEntry_running, List.mem_append, List.mem_singleton]; exact .inr rfl

/-- No fault bit set before is clear after. -/
def FMono (s t : State) : Prop := ∀ i, s.flt.fstat.getLsbD i = true → t.flt.fstat.getLsbD i = true

theorem FMono.rfl' {s : State} : FMono s s := fun _ h => h

theorem FMono.trans' {a b c : State} (h : FMono a b) (k : FMono b c) : FMono a c := fun i x => k i (h i x)

theorem FMono.of_eq {a b : State} (h : b.flt.fstat = a.flt.fstat) : FMono a b := by intro i x; rwa [h]

theorem latch_mono (b s) : FMono s (latch b s) := by intro i h; simp [latch, h]

@[simp] theorem modSource_fstat (b f s) : (modSource b f s).flt.fstat = s.flt.fstat := rfl

theorem countSource_fstat (b s) : (countSource b s).flt.fstat = s.flt.fstat := by unfold countSource; dsimp only; exact modSource_fstat _ _ _

theorem recordLost_mono (s) : FMono s (recordLost s) := by
  refine (FMono.of_eq (b := count 75 s) (by simp)).trans' ((latch_mono 12 _).trans' ?_)
  exact .of_eq (countSource_fstat 12 _)

theorem putRecordAt_mono (rt kind source inj payload s) : FMono s (putRecordAt rt kind source inj payload s) := by
  unfold putRecordAt; dsimp only; split
  · exact .of_eq (by simp)
  · split
    · exact .of_eq (by simp)
    · exact recordLost_mono s

theorem eventRecordOf_mono (a b c d e f s) : FMono s (eventRecordOf a b c d e f s) := by
  unfold eventRecordOf; dsimp only; split
  · exact recordLost_mono s
  · exact (FMono.of_eq (by simp)).trans' (putRecordAt_mono _ _ _ _ _ _)

theorem eventRecord_mono (a b c d e s) : FMono s (eventRecord a b c d e s) := by
  exact (FMono.of_eq (b := (takeFree s).2) rfl).trans' (eventRecordOf_mono _ _ _ _ _ _ _)

theorem remapPage_flt (page s) : (remapPage page s).flt = s.flt := by
  unfold remapPage; split
  · rfl
  · split <;> rfl

theorem remapPages_flt (l : List Nat) (s) : (l.foldl (fun st page => remapPage page st) s).flt = s.flt := by
  induction l generalizing s with
  | nil => rfl
  | cons p l ih => rw [List.foldl_cons, ih, remapPage_flt]

theorem severeReaction_fstat (b k s) : (severeReaction b k s).flt.fstat = s.flt.fstat := by
  unfold severeReaction; split
  · rfl
  split
  · rfl
  split
  · rfl
  split
  · exact congrArg (·.fstat) (remapPages_flt _ s)
  split <;> rfl

theorem countFault_fstat (b k s) : (countFault b k s).flt.fstat = s.flt.fstat := by
  unfold countFault; dsimp only; split
  · exact (severeReaction_fstat b k _).trans (countSource_fstat b s)
  · exact countSource_fstat b s

/-- A raise sets its bit. -/
theorem raiseWith_sets (b g ev k inj st s) (hg : g ≠ .fatal) (hb : b < 32) : (raiseWith b g ev k inj st s).flt.fstat.getLsbD b = true := by
  have h := eventRecord_mono b ev k (gradeCode g) inj (latch b s) b (by simp [latch_bit _ _ _ hb])
  unfold raiseWith; cases g <;> simp_all [countFault_fstat]

/-- A raise clears no fault bit. -/
theorem raiseWith_mono (b g ev k inj st s) (hg : g ≠ .fatal) : FMono s (raiseWith b g ev k inj st s) := by
  refine (latch_mono b s).trans' ((eventRecord_mono b ev k (gradeCode g) inj (latch b s)).trans' ?_)
  unfold raiseWith; cases g <;> simp_all [countFault_fstat, FMono]

/-- A field that a change keeps is kept in every mailbox. -/
theorem mail_proj {α} (g : MailS → α) {f} (hf : ∀ m, g (f m) = g m) (mb mb' s) : g (mail (modMail mb f s) mb') = g (mail s mb') := by
  simp only [mail, modMail, List.getD_eq_getElem?_getD, List.getElem?_modify]
  cases s.host.mail[Mailbox.idx mb']? <;> simp
  split <;> simp [hf]

/-- A push changes only the response queue and the held entries. -/
theorem pushEntry_proj {α} (g : MailS → α) (h : ∀ m r hd, g { m with rspQ := r, held := hd } = g m) (mb mb' e s) : g (mail (pushEntry mb e s) mb') = g (mail s mb') := by
  apply mail_proj; intro m; split
  · exact h m _ m.held
  · exact h m m.rspQ _
/-- A response changes only the response queue and the held entries of a mailbox. -/
theorem answer_proj {α} (g : MailS → α) (h : ∀ m r hd, g { m with rspQ := r, held := hd } = g m) (req op st f s mb) :
    g (mail (answer req op st f s) mb) = g (mail s mb) := by simp [answer, pushEntry_proj g h]

theorem Room.modMail {mb s f} (h : Room mb s) (mb') (h1 : ∀ m, (f m).rspQ = m.rspQ) (h2 : ∀ m, (f m).held = m.held) : Room mb (modMail mb' f s) := by
  obtain ⟨a, b, c⟩ := h
  refine ⟨by simpa [Machine.modMail] using a, ?_, ?_⟩
  · rw [mail_proj MailS.rspQ h1]; exact b
  · rw [mail_proj MailS.held h2]; exact c

theorem replied_from {req op st f s s'} (h : Room req.mb s) (e : s'.host.mail = s.host.mail) : Replied req op st f s (answer req op st f s') :=
  replied_of_mail (answer_replied (h.of_host e)) (by simp [mail, e])

theorem replied_of {req op st f s s'} (h : Room req.mb s') (e : (mail s' req.mb).rspQ = (mail s req.mb).rspQ) : Replied req op st f s (answer req op st f s') :=
  replied_of_mail (answer_replied h) e
end Sys2Proof.Machine
end

