-- ==== Sys2Proof/Laws/Memory.lean ====
section
/-! SUPPORT. The files and patch slots as byte stores: what a write changes, and that every write keeps the canonical form. -/

namespace Sys2Proof.Machine

/-- Every listed address of a store lies at a or above. -/
def Memory.from_ (a : Nat) (m : Memory) : Prop := ∀ c ∈ m, a ≤ c.1

/-- A canonical store with an entry in front: the entry differs from the empty byte, and the rest lies above it. -/
theorem Memory.wf_cons (c : Host.Cell) (m : Memory) :
    Memory.wf (c :: m) = true ↔ c.2 ≠ emptyByte ∧ Memory.from_ (c.1 + 1) m ∧ Memory.wf m = true := by
  induction m generalizing c with
  | nil => simp [Memory.wf, Memory.from_]
  | cons d m ih =>
    rw [Memory.wf]
    simp only [Bool.and_eq_true, bne_iff_ne, ne_eq, decide_eq_true_eq]
    constructor
    · rintro ⟨⟨h1, h2⟩, h3⟩
      refine ⟨h1, ?_, h3⟩
      intro e he
      rcases List.mem_cons.1 he with rfl | he
      · exact h2
      · have := (ih d).1 h3 |>.2.1 e he
        omega
    · rintro ⟨h1, h2, h3⟩
      exact ⟨⟨h1, h2 d (by simp)⟩, h3⟩

/-- A byte below every listed address reads as the empty byte. -/
theorem readByte_below {a b : Nat} {m : Memory} (h : Memory.from_ b m) (lt : a < b) : readByte a m = emptyByte := by
  induction m with
  | nil => rfl
  | cons c m ih =>
    have hc := h c (by simp)
    rw [readByte, if_neg (by omega)]
    exact ih fun e he => h e (by simp [he])

/-- A write above a bound keeps every address above it. -/
theorem writeByte_from {a b : Nat} {v : Byte} {m : Memory} (h : Memory.from_ b m) (le : b ≤ a) : Memory.from_ b (writeByte a v m) := by
  induction m with
  | nil =>
    unfold writeByte; split
    · simp [Memory.from_]
    · intro e he; simp at he; subst he; exact le
  | cons c m ih =>
    have hc := h c (by simp)
    have hm : Memory.from_ b m := fun e he => h e (by simp [he])
    intro e
    unfold writeByte
    split
    · intro he
      rcases List.mem_cons.1 he with rfl | he
      · exact hc
      · exact ih hm e he
    · split
      · split
        · exact hm e
        · intro he
          rcases List.mem_cons.1 he with rfl | he
          · exact le
          · exact hm e he
      · split
        · exact h e
        · intro he
          rcases List.mem_cons.1 he with rfl | he
          · exact le
          · exact h e he

/-- A write keeps the canonical form. -/
theorem writeByte_wf (a : Nat) (v : Byte) (m : Memory) (h : Memory.wf m = true) : Memory.wf (writeByte a v m) = true := by
  induction m with
  | nil => unfold writeByte; split <;> simp_all [Memory.wf]
  | cons c m ih =>
    obtain ⟨h1, h2, h3⟩ := (Memory.wf_cons c m).1 h
    unfold writeByte
    split
    · exact (Memory.wf_cons _ _).2 ⟨h1, writeByte_from h2 (by omega), ih h3⟩
    · split
      · rename_i e
        split
        · exact h3
        · exact (Memory.wf_cons _ _).2 ⟨‹_›, by rw [← e]; exact h2, h3⟩
      · split
        · exact h
        · refine (Memory.wf_cons _ _).2 ⟨‹_›, ?_, h⟩
          intro e he
          rcases List.mem_cons.1 he with rfl | he
          · show a + 1 ≤ e.1; omega
          · have := h2 e he
            show a + 1 ≤ e.1; omega

/-- What a byte reads as after a write of one byte to a canonical store. -/
theorem readByte_writeByte (a b : Nat) (v : Byte) (m : Memory) (h : Memory.wf m = true) :
    readByte b (writeByte a v m) = if b = a then v else readByte b m := by
  induction m with
  | nil =>
    unfold writeByte; split
    · simp_all [readByte]
    · simp [readByte, eq_comm]
  | cons c m ih =>
    obtain ⟨h1, h2, h3⟩ := (Memory.wf_cons c m).1 h
    unfold writeByte
    split
    · rw [readByte, ih h3, readByte]
      by_cases e : c.1 = b
      · have : b ≠ a := by omega
        simp [e, this]
      · simp [e]
    · split
      · rename_i ne e
        split
        · rename_i hv
          by_cases hb : b = a
          · subst hb
            simp [hv, readByte_below h2 (show b < c.1 + 1 by omega)]
          · have : ¬ c.1 = b := by omega
            simp [hb, readByte, this]
        · by_cases hb : b = a
          · subst hb; simp [readByte]
          · have e1 : ¬ a = b := fun x => hb x.symm
            have e2 : ¬ c.1 = b := by omega
            simp [hb, readByte, e1, e2]
      · split
        · rename_i hv
          by_cases hb : b = a
          · subst hb
            have e2 : ¬ c.1 = b := by omega
            simp [hv, readByte, e2, readByte_below h2 (show b < c.1 + 1 by omega)]
          · simp [hb]
        · by_cases hb : b = a
          · subst hb; simp [readByte]
          · have e1 : ¬ a = b := fun x => hb x.symm
            rw [if_neg hb, readByte, if_neg e1]

/-- Writing several bytes keeps the canonical form. -/
theorem writeBytes_wf (a : Nat) (bs : List Byte) (m : Memory) (h : Memory.wf m = true) : Memory.wf (writeBytes a bs m) = true := by
  induction bs generalizing a m with
  | nil => exact h
  | cons b bs ih => exact ih (a + 1) _ (writeByte_wf a b m h)

/-- What a byte reads as after a write of several bytes: the written byte inside the range, what it was outside. -/
theorem readByte_writeBytes (a b : Nat) (bs : List Byte) (m : Memory) (h : Memory.wf m = true) :
    readByte b (writeBytes a bs m) = if a ≤ b ∧ b < a + bs.length then bs.getD (b - a) 0 else readByte b m := by
  induction bs generalizing a m with
  | nil => simp only [writeBytes, List.length_nil]; rw [if_neg (by omega)]
  | cons v bs ih =>
    rw [writeBytes, ih (a + 1) _ (writeByte_wf a v m h), readByte_writeByte a b v m h]
    by_cases e : b = a
    · subst e
      rw [if_neg (by omega), if_pos rfl, if_pos ⟨Nat.le_refl b, by simp⟩]
      simp
    · by_cases c : a + 1 ≤ b ∧ b < a + 1 + bs.length
      · rw [if_pos c, if_pos ⟨by omega, by simp; omega⟩]
        have : b - a = (b - (a + 1)) + 1 := by omega
        simp [this]
      · rw [if_neg c, if_neg e, if_neg (by simp; omega)]

/-- The empty store is canonical. -/
theorem Memory.wf_nil : Memory.wf [] = true := rfl

end Sys2Proof.Machine
end

