-- ==== Sys2Proof/Laws/State.lean ====
section
/-! SUPPORT. One lemma per field of State per update of a field of State, true by rfl. -/

namespace Sys2Proof.Machine

variable (s : State)

@[simp] theorem State.with_lad_lad (v : Ladder) : (State.lad { s with lad := v }) = v := rfl
@[simp] theorem State.with_lad_mod (v : Ladder) : (State.mod { s with lad := v }) = s.mod := rfl
@[simp] theorem State.with_lad_clk (v : Ladder) : (State.clk { s with lad := v }) = s.clk := rfl
@[simp] theorem State.with_lad_sup (v : Ladder) : (State.sup { s with lad := v }) = s.sup := rfl
@[simp] theorem State.with_lad_meas (v : Ladder) : (State.meas { s with lad := v }) = s.meas := rfl
@[simp] theorem State.with_lad_chg (v : Ladder) : (State.chg { s with lad := v }) = s.chg := rfl
@[simp] theorem State.with_lad_eng (v : Ladder) : (State.eng { s with lad := v }) = s.eng := rfl
@[simp] theorem State.with_lad_rack (v : Ladder) : (State.rack { s with lad := v }) = s.rack := rfl
@[simp] theorem State.with_lad_ring (v : Ladder) : (State.ring { s with lad := v }) = s.ring := rfl
@[simp] theorem State.with_lad_aux (v : Ladder) : (State.aux { s with lad := v }) = s.aux := rfl
@[simp] theorem State.with_lad_flt (v : Ladder) : (State.flt { s with lad := v }) = s.flt := rfl
@[simp] theorem State.with_lad_host (v : Ladder) : (State.host { s with lad := v }) = s.host := rfl
@[simp] theorem State.with_lad_cfg (v : Ladder) : (State.cfg { s with lad := v }) = s.cfg := rfl
@[simp] theorem State.with_lad_nv (v : Ladder) : (State.nv { s with lad := v }) = s.nv := rfl
@[simp] theorem State.with_lad_key (v : Ladder) : (State.key { s with lad := v }) = s.key := rfl
@[simp] theorem State.with_lad_upd (v : Ladder) : (State.upd { s with lad := v }) = s.upd := rfl
@[simp] theorem State.with_lad_busA (v : Ladder) : (State.busA { s with lad := v }) = s.busA := rfl
@[simp] theorem State.with_lad_cnt (v : Ladder) : (State.cnt { s with lad := v }) = s.cnt := rfl
@[simp] theorem State.with_lad_dbg (v : Ladder) : (State.dbg { s with lad := v }) = s.dbg := rfl
@[simp] theorem State.with_lad_free (v : Ladder) : (State.free { s with lad := v }) = s.free := rfl
@[simp] theorem State.with_lad_pending (v : Ladder) : (State.pending { s with lad := v }) = s.pending := rfl
@[simp] theorem State.with_mod_lad (v : Modulation) : (State.lad { s with mod := v }) = s.lad := rfl
@[simp] theorem State.with_mod_mod (v : Modulation) : (State.mod { s with mod := v }) = v := rfl
@[simp] theorem State.with_mod_clk (v : Modulation) : (State.clk { s with mod := v }) = s.clk := rfl
@[simp] theorem State.with_mod_sup (v : Modulation) : (State.sup { s with mod := v }) = s.sup := rfl
@[simp] theorem State.with_mod_meas (v : Modulation) : (State.meas { s with mod := v }) = s.meas := rfl
@[simp] theorem State.with_mod_chg (v : Modulation) : (State.chg { s with mod := v }) = s.chg := rfl
@[simp] theorem State.with_mod_eng (v : Modulation) : (State.eng { s with mod := v }) = s.eng := rfl
@[simp] theorem State.with_mod_rack (v : Modulation) : (State.rack { s with mod := v }) = s.rack := rfl
@[simp] theorem State.with_mod_ring (v : Modulation) : (State.ring { s with mod := v }) = s.ring := rfl
@[simp] theorem State.with_mod_aux (v : Modulation) : (State.aux { s with mod := v }) = s.aux := rfl
@[simp] theorem State.with_mod_flt (v : Modulation) : (State.flt { s with mod := v }) = s.flt := rfl
@[simp] theorem State.with_mod_host (v : Modulation) : (State.host { s with mod := v }) = s.host := rfl
@[simp] theorem State.with_mod_cfg (v : Modulation) : (State.cfg { s with mod := v }) = s.cfg := rfl
@[simp] theorem State.with_mod_nv (v : Modulation) : (State.nv { s with mod := v }) = s.nv := rfl
@[simp] theorem State.with_mod_key (v : Modulation) : (State.key { s with mod := v }) = s.key := rfl
@[simp] theorem State.with_mod_upd (v : Modulation) : (State.upd { s with mod := v }) = s.upd := rfl
@[simp] theorem State.with_mod_busA (v : Modulation) : (State.busA { s with mod := v }) = s.busA := rfl
@[simp] theorem State.with_mod_cnt (v : Modulation) : (State.cnt { s with mod := v }) = s.cnt := rfl
@[simp] theorem State.with_mod_dbg (v : Modulation) : (State.dbg { s with mod := v }) = s.dbg := rfl
@[simp] theorem State.with_mod_free (v : Modulation) : (State.free { s with mod := v }) = s.free := rfl
@[simp] theorem State.with_mod_pending (v : Modulation) : (State.pending { s with mod := v }) = s.pending := rfl
@[simp] theorem State.with_clk_lad (v : Clocks) : (State.lad { s with clk := v }) = s.lad := rfl
@[simp] theorem State.with_clk_mod (v : Clocks) : (State.mod { s with clk := v }) = s.mod := rfl
@[simp] theorem State.with_clk_clk (v : Clocks) : (State.clk { s with clk := v }) = v := rfl
@[simp] theorem State.with_clk_sup (v : Clocks) : (State.sup { s with clk := v }) = s.sup := rfl
@[simp] theorem State.with_clk_meas (v : Clocks) : (State.meas { s with clk := v }) = s.meas := rfl
@[simp] theorem State.with_clk_chg (v : Clocks) : (State.chg { s with clk := v }) = s.chg := rfl
@[simp] theorem State.with_clk_eng (v : Clocks) : (State.eng { s with clk := v }) = s.eng := rfl
@[simp] theorem State.with_clk_rack (v : Clocks) : (State.rack { s with clk := v }) = s.rack := rfl
@[simp] theorem State.with_clk_ring (v : Clocks) : (State.ring { s with clk := v }) = s.ring := rfl
@[simp] theorem State.with_clk_aux (v : Clocks) : (State.aux { s with clk := v }) = s.aux := rfl
@[simp] theorem State.with_clk_flt (v : Clocks) : (State.flt { s with clk := v }) = s.flt := rfl
@[simp] theorem State.with_clk_host (v : Clocks) : (State.host { s with clk := v }) = s.host := rfl
@[simp] theorem State.with_clk_cfg (v : Clocks) : (State.cfg { s with clk := v }) = s.cfg := rfl
@[simp] theorem State.with_clk_nv (v : Clocks) : (State.nv { s with clk := v }) = s.nv := rfl
@[simp] theorem State.with_clk_key (v : Clocks) : (State.key { s with clk := v }) = s.key := rfl
@[simp] theorem State.with_clk_upd (v : Clocks) : (State.upd { s with clk := v }) = s.upd := rfl
@[simp] theorem State.with_clk_busA (v : Clocks) : (State.busA { s with clk := v }) = s.busA := rfl
@[simp] theorem State.with_clk_cnt (v : Clocks) : (State.cnt { s with clk := v }) = s.cnt := rfl
@[simp] theorem State.with_clk_dbg (v : Clocks) : (State.dbg { s with clk := v }) = s.dbg := rfl
@[simp] theorem State.with_clk_free (v : Clocks) : (State.free { s with clk := v }) = s.free := rfl
@[simp] theorem State.with_clk_pending (v : Clocks) : (State.pending { s with clk := v }) = s.pending := rfl
@[simp] theorem State.with_sup_lad (v : Supply) : (State.lad { s with sup := v }) = s.lad := rfl
@[simp] theorem State.with_sup_mod (v : Supply) : (State.mod { s with sup := v }) = s.mod := rfl
@[simp] theorem State.with_sup_clk (v : Supply) : (State.clk { s with sup := v }) = s.clk := rfl
@[simp] theorem State.with_sup_sup (v : Supply) : (State.sup { s with sup := v }) = v := rfl
@[simp] theorem State.with_sup_meas (v : Supply) : (State.meas { s with sup := v }) = s.meas := rfl
@[simp] theorem State.with_sup_chg (v : Supply) : (State.chg { s with sup := v }) = s.chg := rfl
@[simp] theorem State.with_sup_eng (v : Supply) : (State.eng { s with sup := v }) = s.eng := rfl
@[simp] theorem State.with_sup_rack (v : Supply) : (State.rack { s with sup := v }) = s.rack := rfl
@[simp] theorem State.with_sup_ring (v : Supply) : (State.ring { s with sup := v }) = s.ring := rfl
@[simp] theorem State.with_sup_aux (v : Supply) : (State.aux { s with sup := v }) = s.aux := rfl
@[simp] theorem State.with_sup_flt (v : Supply) : (State.flt { s with sup := v }) = s.flt := rfl
@[simp] theorem State.with_sup_host (v : Supply) : (State.host { s with sup := v }) = s.host := rfl
@[simp] theorem State.with_sup_cfg (v : Supply) : (State.cfg { s with sup := v }) = s.cfg := rfl
@[simp] theorem State.with_sup_nv (v : Supply) : (State.nv { s with sup := v }) = s.nv := rfl
@[simp] theorem State.with_sup_key (v : Supply) : (State.key { s with sup := v }) = s.key := rfl
@[simp] theorem State.with_sup_upd (v : Supply) : (State.upd { s with sup := v }) = s.upd := rfl
@[simp] theorem State.with_sup_busA (v : Supply) : (State.busA { s with sup := v }) = s.busA := rfl
@[simp] theorem State.with_sup_cnt (v : Supply) : (State.cnt { s with sup := v }) = s.cnt := rfl
@[simp] theorem State.with_sup_dbg (v : Supply) : (State.dbg { s with sup := v }) = s.dbg := rfl
@[simp] theorem State.with_sup_free (v : Supply) : (State.free { s with sup := v }) = s.free := rfl
@[simp] theorem State.with_sup_pending (v : Supply) : (State.pending { s with sup := v }) = s.pending := rfl
@[simp] theorem State.with_meas_lad (v : Measure) : (State.lad { s with meas := v }) = s.lad := rfl
@[simp] theorem State.with_meas_mod (v : Measure) : (State.mod { s with meas := v }) = s.mod := rfl
@[simp] theorem State.with_meas_clk (v : Measure) : (State.clk { s with meas := v }) = s.clk := rfl
@[simp] theorem State.with_meas_sup (v : Measure) : (State.sup { s with meas := v }) = s.sup := rfl
@[simp] theorem State.with_meas_meas (v : Measure) : (State.meas { s with meas := v }) = v := rfl
@[simp] theorem State.with_meas_chg (v : Measure) : (State.chg { s with meas := v }) = s.chg := rfl
@[simp] theorem State.with_meas_eng (v : Measure) : (State.eng { s with meas := v }) = s.eng := rfl
@[simp] theorem State.with_meas_rack (v : Measure) : (State.rack { s with meas := v }) = s.rack := rfl
@[simp] theorem State.with_meas_ring (v : Measure) : (State.ring { s with meas := v }) = s.ring := rfl
@[simp] theorem State.with_meas_aux (v : Measure) : (State.aux { s with meas := v }) = s.aux := rfl
@[simp] theorem State.with_meas_flt (v : Measure) : (State.flt { s with meas := v }) = s.flt := rfl
@[simp] theorem State.with_meas_host (v : Measure) : (State.host { s with meas := v }) = s.host := rfl
@[simp] theorem State.with_meas_cfg (v : Measure) : (State.cfg { s with meas := v }) = s.cfg := rfl
@[simp] theorem State.with_meas_nv (v : Measure) : (State.nv { s with meas := v }) = s.nv := rfl
@[simp] theorem State.with_meas_key (v : Measure) : (State.key { s with meas := v }) = s.key := rfl
@[simp] theorem State.with_meas_upd (v : Measure) : (State.upd { s with meas := v }) = s.upd := rfl
@[simp] theorem State.with_meas_busA (v : Measure) : (State.busA { s with meas := v }) = s.busA := rfl
@[simp] theorem State.with_meas_cnt (v : Measure) : (State.cnt { s with meas := v }) = s.cnt := rfl
@[simp] theorem State.with_meas_dbg (v : Measure) : (State.dbg { s with meas := v }) = s.dbg := rfl
@[simp] theorem State.with_meas_free (v : Measure) : (State.free { s with meas := v }) = s.free := rfl
@[simp] theorem State.with_meas_pending (v : Measure) : (State.pending { s with meas := v }) = s.pending := rfl
@[simp] theorem State.with_chg_lad (v : Charge) : (State.lad { s with chg := v }) = s.lad := rfl
@[simp] theorem State.with_chg_mod (v : Charge) : (State.mod { s with chg := v }) = s.mod := rfl
@[simp] theorem State.with_chg_clk (v : Charge) : (State.clk { s with chg := v }) = s.clk := rfl
@[simp] theorem State.with_chg_sup (v : Charge) : (State.sup { s with chg := v }) = s.sup := rfl
@[simp] theorem State.with_chg_meas (v : Charge) : (State.meas { s with chg := v }) = s.meas := rfl
@[simp] theorem State.with_chg_chg (v : Charge) : (State.chg { s with chg := v }) = v := rfl
@[simp] theorem State.with_chg_eng (v : Charge) : (State.eng { s with chg := v }) = s.eng := rfl
@[simp] theorem State.with_chg_rack (v : Charge) : (State.rack { s with chg := v }) = s.rack := rfl
@[simp] theorem State.with_chg_ring (v : Charge) : (State.ring { s with chg := v }) = s.ring := rfl
@[simp] theorem State.with_chg_aux (v : Charge) : (State.aux { s with chg := v }) = s.aux := rfl
@[simp] theorem State.with_chg_flt (v : Charge) : (State.flt { s with chg := v }) = s.flt := rfl
@[simp] theorem State.with_chg_host (v : Charge) : (State.host { s with chg := v }) = s.host := rfl
@[simp] theorem State.with_chg_cfg (v : Charge) : (State.cfg { s with chg := v }) = s.cfg := rfl
@[simp] theorem State.with_chg_nv (v : Charge) : (State.nv { s with chg := v }) = s.nv := rfl
@[simp] theorem State.with_chg_key (v : Charge) : (State.key { s with chg := v }) = s.key := rfl
@[simp] theorem State.with_chg_upd (v : Charge) : (State.upd { s with chg := v }) = s.upd := rfl
@[simp] theorem State.with_chg_busA (v : Charge) : (State.busA { s with chg := v }) = s.busA := rfl
@[simp] theorem State.with_chg_cnt (v : Charge) : (State.cnt { s with chg := v }) = s.cnt := rfl
@[simp] theorem State.with_chg_dbg (v : Charge) : (State.dbg { s with chg := v }) = s.dbg := rfl
@[simp] theorem State.with_chg_free (v : Charge) : (State.free { s with chg := v }) = s.free := rfl
@[simp] theorem State.with_chg_pending (v : Charge) : (State.pending { s with chg := v }) = s.pending := rfl
@[simp] theorem State.with_eng_lad (v : Engine) : (State.lad { s with eng := v }) = s.lad := rfl
@[simp] theorem State.with_eng_mod (v : Engine) : (State.mod { s with eng := v }) = s.mod := rfl
@[simp] theorem State.with_eng_clk (v : Engine) : (State.clk { s with eng := v }) = s.clk := rfl
@[simp] theorem State.with_eng_sup (v : Engine) : (State.sup { s with eng := v }) = s.sup := rfl
@[simp] theorem State.with_eng_meas (v : Engine) : (State.meas { s with eng := v }) = s.meas := rfl
@[simp] theorem State.with_eng_chg (v : Engine) : (State.chg { s with eng := v }) = s.chg := rfl
@[simp] theorem State.with_eng_eng (v : Engine) : (State.eng { s with eng := v }) = v := rfl
@[simp] theorem State.with_eng_rack (v : Engine) : (State.rack { s with eng := v }) = s.rack := rfl
@[simp] theorem State.with_eng_ring (v : Engine) : (State.ring { s with eng := v }) = s.ring := rfl
@[simp] theorem State.with_eng_aux (v : Engine) : (State.aux { s with eng := v }) = s.aux := rfl
@[simp] theorem State.with_eng_flt (v : Engine) : (State.flt { s with eng := v }) = s.flt := rfl
@[simp] theorem State.with_eng_host (v : Engine) : (State.host { s with eng := v }) = s.host := rfl
@[simp] theorem State.with_eng_cfg (v : Engine) : (State.cfg { s with eng := v }) = s.cfg := rfl
@[simp] theorem State.with_eng_nv (v : Engine) : (State.nv { s with eng := v }) = s.nv := rfl
@[simp] theorem State.with_eng_key (v : Engine) : (State.key { s with eng := v }) = s.key := rfl
@[simp] theorem State.with_eng_upd (v : Engine) : (State.upd { s with eng := v }) = s.upd := rfl
@[simp] theorem State.with_eng_busA (v : Engine) : (State.busA { s with eng := v }) = s.busA := rfl
@[simp] theorem State.with_eng_cnt (v : Engine) : (State.cnt { s with eng := v }) = s.cnt := rfl
@[simp] theorem State.with_eng_dbg (v : Engine) : (State.dbg { s with eng := v }) = s.dbg := rfl
@[simp] theorem State.with_eng_free (v : Engine) : (State.free { s with eng := v }) = s.free := rfl
@[simp] theorem State.with_eng_pending (v : Engine) : (State.pending { s with eng := v }) = s.pending := rfl
@[simp] theorem State.with_rack_lad (v : Rack) : (State.lad { s with rack := v }) = s.lad := rfl
@[simp] theorem State.with_rack_mod (v : Rack) : (State.mod { s with rack := v }) = s.mod := rfl
@[simp] theorem State.with_rack_clk (v : Rack) : (State.clk { s with rack := v }) = s.clk := rfl
@[simp] theorem State.with_rack_sup (v : Rack) : (State.sup { s with rack := v }) = s.sup := rfl
@[simp] theorem State.with_rack_meas (v : Rack) : (State.meas { s with rack := v }) = s.meas := rfl
@[simp] theorem State.with_rack_chg (v : Rack) : (State.chg { s with rack := v }) = s.chg := rfl
@[simp] theorem State.with_rack_eng (v : Rack) : (State.eng { s with rack := v }) = s.eng := rfl
@[simp] theorem State.with_rack_rack (v : Rack) : (State.rack { s with rack := v }) = v := rfl
@[simp] theorem State.with_rack_ring (v : Rack) : (State.ring { s with rack := v }) = s.ring := rfl
@[simp] theorem State.with_rack_aux (v : Rack) : (State.aux { s with rack := v }) = s.aux := rfl
@[simp] theorem State.with_rack_flt (v : Rack) : (State.flt { s with rack := v }) = s.flt := rfl
@[simp] theorem State.with_rack_host (v : Rack) : (State.host { s with rack := v }) = s.host := rfl
@[simp] theorem State.with_rack_cfg (v : Rack) : (State.cfg { s with rack := v }) = s.cfg := rfl
@[simp] theorem State.with_rack_nv (v : Rack) : (State.nv { s with rack := v }) = s.nv := rfl
@[simp] theorem State.with_rack_key (v : Rack) : (State.key { s with rack := v }) = s.key := rfl
@[simp] theorem State.with_rack_upd (v : Rack) : (State.upd { s with rack := v }) = s.upd := rfl
@[simp] theorem State.with_rack_busA (v : Rack) : (State.busA { s with rack := v }) = s.busA := rfl
@[simp] theorem State.with_rack_cnt (v : Rack) : (State.cnt { s with rack := v }) = s.cnt := rfl
@[simp] theorem State.with_rack_dbg (v : Rack) : (State.dbg { s with rack := v }) = s.dbg := rfl
@[simp] theorem State.with_rack_free (v : Rack) : (State.free { s with rack := v }) = s.free := rfl
@[simp] theorem State.with_rack_pending (v : Rack) : (State.pending { s with rack := v }) = s.pending := rfl
@[simp] theorem State.with_ring_lad (v : Ring) : (State.lad { s with ring := v }) = s.lad := rfl
@[simp] theorem State.with_ring_mod (v : Ring) : (State.mod { s with ring := v }) = s.mod := rfl
@[simp] theorem State.with_ring_clk (v : Ring) : (State.clk { s with ring := v }) = s.clk := rfl
@[simp] theorem State.with_ring_sup (v : Ring) : (State.sup { s with ring := v }) = s.sup := rfl
@[simp] theorem State.with_ring_meas (v : Ring) : (State.meas { s with ring := v }) = s.meas := rfl
@[simp] theorem State.with_ring_chg (v : Ring) : (State.chg { s with ring := v }) = s.chg := rfl
@[simp] theorem State.with_ring_eng (v : Ring) : (State.eng { s with ring := v }) = s.eng := rfl
@[simp] theorem State.with_ring_rack (v : Ring) : (State.rack { s with ring := v }) = s.rack := rfl
@[simp] theorem State.with_ring_ring (v : Ring) : (State.ring { s with ring := v }) = v := rfl
@[simp] theorem State.with_ring_aux (v : Ring) : (State.aux { s with ring := v }) = s.aux := rfl
@[simp] theorem State.with_ring_flt (v : Ring) : (State.flt { s with ring := v }) = s.flt := rfl
@[simp] theorem State.with_ring_host (v : Ring) : (State.host { s with ring := v }) = s.host := rfl
@[simp] theorem State.with_ring_cfg (v : Ring) : (State.cfg { s with ring := v }) = s.cfg := rfl
@[simp] theorem State.with_ring_nv (v : Ring) : (State.nv { s with ring := v }) = s.nv := rfl
@[simp] theorem State.with_ring_key (v : Ring) : (State.key { s with ring := v }) = s.key := rfl
@[simp] theorem State.with_ring_upd (v : Ring) : (State.upd { s with ring := v }) = s.upd := rfl
@[simp] theorem State.with_ring_busA (v : Ring) : (State.busA { s with ring := v }) = s.busA := rfl
@[simp] theorem State.with_ring_cnt (v : Ring) : (State.cnt { s with ring := v }) = s.cnt := rfl
@[simp] theorem State.with_ring_dbg (v : Ring) : (State.dbg { s with ring := v }) = s.dbg := rfl
@[simp] theorem State.with_ring_free (v : Ring) : (State.free { s with ring := v }) = s.free := rfl
@[simp] theorem State.with_ring_pending (v : Ring) : (State.pending { s with ring := v }) = s.pending := rfl
@[simp] theorem State.with_aux_lad (v : Aux) : (State.lad { s with aux := v }) = s.lad := rfl
@[simp] theorem State.with_aux_mod (v : Aux) : (State.mod { s with aux := v }) = s.mod := rfl
@[simp] theorem State.with_aux_clk (v : Aux) : (State.clk { s with aux := v }) = s.clk := rfl
@[simp] theorem State.with_aux_sup (v : Aux) : (State.sup { s with aux := v }) = s.sup := rfl
@[simp] theorem State.with_aux_meas (v : Aux) : (State.meas { s with aux := v }) = s.meas := rfl
@[simp] theorem State.with_aux_chg (v : Aux) : (State.chg { s with aux := v }) = s.chg := rfl
@[simp] theorem State.with_aux_eng (v : Aux) : (State.eng { s with aux := v }) = s.eng := rfl
@[simp] theorem State.with_aux_rack (v : Aux) : (State.rack { s with aux := v }) = s.rack := rfl
@[simp] theorem State.with_aux_ring (v : Aux) : (State.ring { s with aux := v }) = s.ring := rfl
@[simp] theorem State.with_aux_aux (v : Aux) : (State.aux { s with aux := v }) = v := rfl
@[simp] theorem State.with_aux_flt (v : Aux) : (State.flt { s with aux := v }) = s.flt := rfl
@[simp] theorem State.with_aux_host (v : Aux) : (State.host { s with aux := v }) = s.host := rfl
@[simp] theorem State.with_aux_cfg (v : Aux) : (State.cfg { s with aux := v }) = s.cfg := rfl
@[simp] theorem State.with_aux_nv (v : Aux) : (State.nv { s with aux := v }) = s.nv := rfl
@[simp] theorem State.with_aux_key (v : Aux) : (State.key { s with aux := v }) = s.key := rfl
@[simp] theorem State.with_aux_upd (v : Aux) : (State.upd { s with aux := v }) = s.upd := rfl
@[simp] theorem State.with_aux_busA (v : Aux) : (State.busA { s with aux := v }) = s.busA := rfl
@[simp] theorem State.with_aux_cnt (v : Aux) : (State.cnt { s with aux := v }) = s.cnt := rfl
@[simp] theorem State.with_aux_dbg (v : Aux) : (State.dbg { s with aux := v }) = s.dbg := rfl
@[simp] theorem State.with_aux_free (v : Aux) : (State.free { s with aux := v }) = s.free := rfl
@[simp] theorem State.with_aux_pending (v : Aux) : (State.pending { s with aux := v }) = s.pending := rfl
@[simp] theorem State.with_flt_lad (v : Faults) : (State.lad { s with flt := v }) = s.lad := rfl
@[simp] theorem State.with_flt_mod (v : Faults) : (State.mod { s with flt := v }) = s.mod := rfl
@[simp] theorem State.with_flt_clk (v : Faults) : (State.clk { s with flt := v }) = s.clk := rfl
@[simp] theorem State.with_flt_sup (v : Faults) : (State.sup { s with flt := v }) = s.sup := rfl
@[simp] theorem State.with_flt_meas (v : Faults) : (State.meas { s with flt := v }) = s.meas := rfl
@[simp] theorem State.with_flt_chg (v : Faults) : (State.chg { s with flt := v }) = s.chg := rfl
@[simp] theorem State.with_flt_eng (v : Faults) : (State.eng { s with flt := v }) = s.eng := rfl
@[simp] theorem State.with_flt_rack (v : Faults) : (State.rack { s with flt := v }) = s.rack := rfl
@[simp] theorem State.with_flt_ring (v : Faults) : (State.ring { s with flt := v }) = s.ring := rfl
@[simp] theorem State.with_flt_aux (v : Faults) : (State.aux { s with flt := v }) = s.aux := rfl
@[simp] theorem State.with_flt_flt (v : Faults) : (State.flt { s with flt := v }) = v := rfl
@[simp] theorem State.with_flt_host (v : Faults) : (State.host { s with flt := v }) = s.host := rfl
@[simp] theorem State.with_flt_cfg (v : Faults) : (State.cfg { s with flt := v }) = s.cfg := rfl
@[simp] theorem State.with_flt_nv (v : Faults) : (State.nv { s with flt := v }) = s.nv := rfl
@[simp] theorem State.with_flt_key (v : Faults) : (State.key { s with flt := v }) = s.key := rfl
@[simp] theorem State.with_flt_upd (v : Faults) : (State.upd { s with flt := v }) = s.upd := rfl
@[simp] theorem State.with_flt_busA (v : Faults) : (State.busA { s with flt := v }) = s.busA := rfl
@[simp] theorem State.with_flt_cnt (v : Faults) : (State.cnt { s with flt := v }) = s.cnt := rfl
@[simp] theorem State.with_flt_dbg (v : Faults) : (State.dbg { s with flt := v }) = s.dbg := rfl
@[simp] theorem State.with_flt_free (v : Faults) : (State.free { s with flt := v }) = s.free := rfl
@[simp] theorem State.with_flt_pending (v : Faults) : (State.pending { s with flt := v }) = s.pending := rfl
@[simp] theorem State.with_host_lad (v : HostS) : (State.lad { s with host := v }) = s.lad := rfl
@[simp] theorem State.with_host_mod (v : HostS) : (State.mod { s with host := v }) = s.mod := rfl
@[simp] theorem State.with_host_clk (v : HostS) : (State.clk { s with host := v }) = s.clk := rfl
@[simp] theorem State.with_host_sup (v : HostS) : (State.sup { s with host := v }) = s.sup := rfl
@[simp] theorem State.with_host_meas (v : HostS) : (State.meas { s with host := v }) = s.meas := rfl
@[simp] theorem State.with_host_chg (v : HostS) : (State.chg { s with host := v }) = s.chg := rfl
@[simp] theorem State.with_host_eng (v : HostS) : (State.eng { s with host := v }) = s.eng := rfl
@[simp] theorem State.with_host_rack (v : HostS) : (State.rack { s with host := v }) = s.rack := rfl
@[simp] theorem State.with_host_ring (v : HostS) : (State.ring { s with host := v }) = s.ring := rfl
@[simp] theorem State.with_host_aux (v : HostS) : (State.aux { s with host := v }) = s.aux := rfl
@[simp] theorem State.with_host_flt (v : HostS) : (State.flt { s with host := v }) = s.flt := rfl
@[simp] theorem State.with_host_host (v : HostS) : (State.host { s with host := v }) = v := rfl
@[simp] theorem State.with_host_cfg (v : HostS) : (State.cfg { s with host := v }) = s.cfg := rfl
@[simp] theorem State.with_host_nv (v : HostS) : (State.nv { s with host := v }) = s.nv := rfl
@[simp] theorem State.with_host_key (v : HostS) : (State.key { s with host := v }) = s.key := rfl
@[simp] theorem State.with_host_upd (v : HostS) : (State.upd { s with host := v }) = s.upd := rfl
@[simp] theorem State.with_host_busA (v : HostS) : (State.busA { s with host := v }) = s.busA := rfl
@[simp] theorem State.with_host_cnt (v : HostS) : (State.cnt { s with host := v }) = s.cnt := rfl
@[simp] theorem State.with_host_dbg (v : HostS) : (State.dbg { s with host := v }) = s.dbg := rfl
@[simp] theorem State.with_host_free (v : HostS) : (State.free { s with host := v }) = s.free := rfl
@[simp] theorem State.with_host_pending (v : HostS) : (State.pending { s with host := v }) = s.pending := rfl
@[simp] theorem State.with_cfg_lad (v : CfgS) : (State.lad { s with cfg := v }) = s.lad := rfl
@[simp] theorem State.with_cfg_mod (v : CfgS) : (State.mod { s with cfg := v }) = s.mod := rfl
@[simp] theorem State.with_cfg_clk (v : CfgS) : (State.clk { s with cfg := v }) = s.clk := rfl
@[simp] theorem State.with_cfg_sup (v : CfgS) : (State.sup { s with cfg := v }) = s.sup := rfl
@[simp] theorem State.with_cfg_meas (v : CfgS) : (State.meas { s with cfg := v }) = s.meas := rfl
@[simp] theorem State.with_cfg_chg (v : CfgS) : (State.chg { s with cfg := v }) = s.chg := rfl
@[simp] theorem State.with_cfg_eng (v : CfgS) : (State.eng { s with cfg := v }) = s.eng := rfl
@[simp] theorem State.with_cfg_rack (v : CfgS) : (State.rack { s with cfg := v }) = s.rack := rfl
@[simp] theorem State.with_cfg_ring (v : CfgS) : (State.ring { s with cfg := v }) = s.ring := rfl
@[simp] theorem State.with_cfg_aux (v : CfgS) : (State.aux { s with cfg := v }) = s.aux := rfl
@[simp] theorem State.with_cfg_flt (v : CfgS) : (State.flt { s with cfg := v }) = s.flt := rfl
@[simp] theorem State.with_cfg_host (v : CfgS) : (State.host { s with cfg := v }) = s.host := rfl
@[simp] theorem State.with_cfg_cfg (v : CfgS) : (State.cfg { s with cfg := v }) = v := rfl
@[simp] theorem State.with_cfg_nv (v : CfgS) : (State.nv { s with cfg := v }) = s.nv := rfl
@[simp] theorem State.with_cfg_key (v : CfgS) : (State.key { s with cfg := v }) = s.key := rfl
@[simp] theorem State.with_cfg_upd (v : CfgS) : (State.upd { s with cfg := v }) = s.upd := rfl
@[simp] theorem State.with_cfg_busA (v : CfgS) : (State.busA { s with cfg := v }) = s.busA := rfl
@[simp] theorem State.with_cfg_cnt (v : CfgS) : (State.cnt { s with cfg := v }) = s.cnt := rfl
@[simp] theorem State.with_cfg_dbg (v : CfgS) : (State.dbg { s with cfg := v }) = s.dbg := rfl
@[simp] theorem State.with_cfg_free (v : CfgS) : (State.free { s with cfg := v }) = s.free := rfl
@[simp] theorem State.with_cfg_pending (v : CfgS) : (State.pending { s with cfg := v }) = s.pending := rfl
@[simp] theorem State.with_nv_lad (v : Store) : (State.lad { s with nv := v }) = s.lad := rfl
@[simp] theorem State.with_nv_mod (v : Store) : (State.mod { s with nv := v }) = s.mod := rfl
@[simp] theorem State.with_nv_clk (v : Store) : (State.clk { s with nv := v }) = s.clk := rfl
@[simp] theorem State.with_nv_sup (v : Store) : (State.sup { s with nv := v }) = s.sup := rfl
@[simp] theorem State.with_nv_meas (v : Store) : (State.meas { s with nv := v }) = s.meas := rfl
@[simp] theorem State.with_nv_chg (v : Store) : (State.chg { s with nv := v }) = s.chg := rfl
@[simp] theorem State.with_nv_eng (v : Store) : (State.eng { s with nv := v }) = s.eng := rfl
@[simp] theorem State.with_nv_rack (v : Store) : (State.rack { s with nv := v }) = s.rack := rfl
@[simp] theorem State.with_nv_ring (v : Store) : (State.ring { s with nv := v }) = s.ring := rfl
@[simp] theorem State.with_nv_aux (v : Store) : (State.aux { s with nv := v }) = s.aux := rfl
@[simp] theorem State.with_nv_flt (v : Store) : (State.flt { s with nv := v }) = s.flt := rfl
@[simp] theorem State.with_nv_host (v : Store) : (State.host { s with nv := v }) = s.host := rfl
@[simp] theorem State.with_nv_cfg (v : Store) : (State.cfg { s with nv := v }) = s.cfg := rfl
@[simp] theorem State.with_nv_nv (v : Store) : (State.nv { s with nv := v }) = v := rfl
@[simp] theorem State.with_nv_key (v : Store) : (State.key { s with nv := v }) = s.key := rfl
@[simp] theorem State.with_nv_upd (v : Store) : (State.upd { s with nv := v }) = s.upd := rfl
@[simp] theorem State.with_nv_busA (v : Store) : (State.busA { s with nv := v }) = s.busA := rfl
@[simp] theorem State.with_nv_cnt (v : Store) : (State.cnt { s with nv := v }) = s.cnt := rfl
@[simp] theorem State.with_nv_dbg (v : Store) : (State.dbg { s with nv := v }) = s.dbg := rfl
@[simp] theorem State.with_nv_free (v : Store) : (State.free { s with nv := v }) = s.free := rfl
@[simp] theorem State.with_nv_pending (v : Store) : (State.pending { s with nv := v }) = s.pending := rfl
@[simp] theorem State.with_key_lad (v : Keys) : (State.lad { s with key := v }) = s.lad := rfl
@[simp] theorem State.with_key_mod (v : Keys) : (State.mod { s with key := v }) = s.mod := rfl
@[simp] theorem State.with_key_clk (v : Keys) : (State.clk { s with key := v }) = s.clk := rfl
@[simp] theorem State.with_key_sup (v : Keys) : (State.sup { s with key := v }) = s.sup := rfl
@[simp] theorem State.with_key_meas (v : Keys) : (State.meas { s with key := v }) = s.meas := rfl
@[simp] theorem State.with_key_chg (v : Keys) : (State.chg { s with key := v }) = s.chg := rfl
@[simp] theorem State.with_key_eng (v : Keys) : (State.eng { s with key := v }) = s.eng := rfl
@[simp] theorem State.with_key_rack (v : Keys) : (State.rack { s with key := v }) = s.rack := rfl
@[simp] theorem State.with_key_ring (v : Keys) : (State.ring { s with key := v }) = s.ring := rfl
@[simp] theorem State.with_key_aux (v : Keys) : (State.aux { s with key := v }) = s.aux := rfl
@[simp] theorem State.with_key_flt (v : Keys) : (State.flt { s with key := v }) = s.flt := rfl
@[simp] theorem State.with_key_host (v : Keys) : (State.host { s with key := v }) = s.host := rfl
@[simp] theorem State.with_key_cfg (v : Keys) : (State.cfg { s with key := v }) = s.cfg := rfl
@[simp] theorem State.with_key_nv (v : Keys) : (State.nv { s with key := v }) = s.nv := rfl
@[simp] theorem State.with_key_key (v : Keys) : (State.key { s with key := v }) = v := rfl
@[simp] theorem State.with_key_upd (v : Keys) : (State.upd { s with key := v }) = s.upd := rfl
@[simp] theorem State.with_key_busA (v : Keys) : (State.busA { s with key := v }) = s.busA := rfl
@[simp] theorem State.with_key_cnt (v : Keys) : (State.cnt { s with key := v }) = s.cnt := rfl
@[simp] theorem State.with_key_dbg (v : Keys) : (State.dbg { s with key := v }) = s.dbg := rfl
@[simp] theorem State.with_key_free (v : Keys) : (State.free { s with key := v }) = s.free := rfl
@[simp] theorem State.with_key_pending (v : Keys) : (State.pending { s with key := v }) = s.pending := rfl
@[simp] theorem State.with_upd_lad (v : Update) : (State.lad { s with upd := v }) = s.lad := rfl
@[simp] theorem State.with_upd_mod (v : Update) : (State.mod { s with upd := v }) = s.mod := rfl
@[simp] theorem State.with_upd_clk (v : Update) : (State.clk { s with upd := v }) = s.clk := rfl
@[simp] theorem State.with_upd_sup (v : Update) : (State.sup { s with upd := v }) = s.sup := rfl
@[simp] theorem State.with_upd_meas (v : Update) : (State.meas { s with upd := v }) = s.meas := rfl
@[simp] theorem State.with_upd_chg (v : Update) : (State.chg { s with upd := v }) = s.chg := rfl
@[simp] theorem State.with_upd_eng (v : Update) : (State.eng { s with upd := v }) = s.eng := rfl
@[simp] theorem State.with_upd_rack (v : Update) : (State.rack { s with upd := v }) = s.rack := rfl
@[simp] theorem State.with_upd_ring (v : Update) : (State.ring { s with upd := v }) = s.ring := rfl
@[simp] theorem State.with_upd_aux (v : Update) : (State.aux { s with upd := v }) = s.aux := rfl
@[simp] theorem State.with_upd_flt (v : Update) : (State.flt { s with upd := v }) = s.flt := rfl
@[simp] theorem State.with_upd_host (v : Update) : (State.host { s with upd := v }) = s.host := rfl
@[simp] theorem State.with_upd_cfg (v : Update) : (State.cfg { s with upd := v }) = s.cfg := rfl
@[simp] theorem State.with_upd_nv (v : Update) : (State.nv { s with upd := v }) = s.nv := rfl
@[simp] theorem State.with_upd_key (v : Update) : (State.key { s with upd := v }) = s.key := rfl
@[simp] theorem State.with_upd_upd (v : Update) : (State.upd { s with upd := v }) = v := rfl
@[simp] theorem State.with_upd_busA (v : Update) : (State.busA { s with upd := v }) = s.busA := rfl
@[simp] theorem State.with_upd_cnt (v : Update) : (State.cnt { s with upd := v }) = s.cnt := rfl
@[simp] theorem State.with_upd_dbg (v : Update) : (State.dbg { s with upd := v }) = s.dbg := rfl
@[simp] theorem State.with_upd_free (v : Update) : (State.free { s with upd := v }) = s.free := rfl
@[simp] theorem State.with_upd_pending (v : Update) : (State.pending { s with upd := v }) = s.pending := rfl
@[simp] theorem State.with_busA_lad (v : BusA) : (State.lad { s with busA := v }) = s.lad := rfl
@[simp] theorem State.with_busA_mod (v : BusA) : (State.mod { s with busA := v }) = s.mod := rfl
@[simp] theorem State.with_busA_clk (v : BusA) : (State.clk { s with busA := v }) = s.clk := rfl
@[simp] theorem State.with_busA_sup (v : BusA) : (State.sup { s with busA := v }) = s.sup := rfl
@[simp] theorem State.with_busA_meas (v : BusA) : (State.meas { s with busA := v }) = s.meas := rfl
@[simp] theorem State.with_busA_chg (v : BusA) : (State.chg { s with busA := v }) = s.chg := rfl
@[simp] theorem State.with_busA_eng (v : BusA) : (State.eng { s with busA := v }) = s.eng := rfl
@[simp] theorem State.with_busA_rack (v : BusA) : (State.rack { s with busA := v }) = s.rack := rfl
@[simp] theorem State.with_busA_ring (v : BusA) : (State.ring { s with busA := v }) = s.ring := rfl
@[simp] theorem State.with_busA_aux (v : BusA) : (State.aux { s with busA := v }) = s.aux := rfl
@[simp] theorem State.with_busA_flt (v : BusA) : (State.flt { s with busA := v }) = s.flt := rfl
@[simp] theorem State.with_busA_host (v : BusA) : (State.host { s with busA := v }) = s.host := rfl
@[simp] theorem State.with_busA_cfg (v : BusA) : (State.cfg { s with busA := v }) = s.cfg := rfl
@[simp] theorem State.with_busA_nv (v : BusA) : (State.nv { s with busA := v }) = s.nv := rfl
@[simp] theorem State.with_busA_key (v : BusA) : (State.key { s with busA := v }) = s.key := rfl
@[simp] theorem State.with_busA_upd (v : BusA) : (State.upd { s with busA := v }) = s.upd := rfl
@[simp] theorem State.with_busA_busA (v : BusA) : (State.busA { s with busA := v }) = v := rfl
@[simp] theorem State.with_busA_cnt (v : BusA) : (State.cnt { s with busA := v }) = s.cnt := rfl
@[simp] theorem State.with_busA_dbg (v : BusA) : (State.dbg { s with busA := v }) = s.dbg := rfl
@[simp] theorem State.with_busA_free (v : BusA) : (State.free { s with busA := v }) = s.free := rfl
@[simp] theorem State.with_busA_pending (v : BusA) : (State.pending { s with busA := v }) = s.pending := rfl
@[simp] theorem State.with_cnt_lad (v : Count) : (State.lad { s with cnt := v }) = s.lad := rfl
@[simp] theorem State.with_cnt_mod (v : Count) : (State.mod { s with cnt := v }) = s.mod := rfl
@[simp] theorem State.with_cnt_clk (v : Count) : (State.clk { s with cnt := v }) = s.clk := rfl
@[simp] theorem State.with_cnt_sup (v : Count) : (State.sup { s with cnt := v }) = s.sup := rfl
@[simp] theorem State.with_cnt_meas (v : Count) : (State.meas { s with cnt := v }) = s.meas := rfl
@[simp] theorem State.with_cnt_chg (v : Count) : (State.chg { s with cnt := v }) = s.chg := rfl
@[simp] theorem State.with_cnt_eng (v : Count) : (State.eng { s with cnt := v }) = s.eng := rfl
@[simp] theorem State.with_cnt_rack (v : Count) : (State.rack { s with cnt := v }) = s.rack := rfl
@[simp] theorem State.with_cnt_ring (v : Count) : (State.ring { s with cnt := v }) = s.ring := rfl
@[simp] theorem State.with_cnt_aux (v : Count) : (State.aux { s with cnt := v }) = s.aux := rfl
@[simp] theorem State.with_cnt_flt (v : Count) : (State.flt { s with cnt := v }) = s.flt := rfl
@[simp] theorem State.with_cnt_host (v : Count) : (State.host { s with cnt := v }) = s.host := rfl
@[simp] theorem State.with_cnt_cfg (v : Count) : (State.cfg { s with cnt := v }) = s.cfg := rfl
@[simp] theorem State.with_cnt_nv (v : Count) : (State.nv { s with cnt := v }) = s.nv := rfl
@[simp] theorem State.with_cnt_key (v : Count) : (State.key { s with cnt := v }) = s.key := rfl
@[simp] theorem State.with_cnt_upd (v : Count) : (State.upd { s with cnt := v }) = s.upd := rfl
@[simp] theorem State.with_cnt_busA (v : Count) : (State.busA { s with cnt := v }) = s.busA := rfl
@[simp] theorem State.with_cnt_cnt (v : Count) : (State.cnt { s with cnt := v }) = v := rfl
@[simp] theorem State.with_cnt_dbg (v : Count) : (State.dbg { s with cnt := v }) = s.dbg := rfl
@[simp] theorem State.with_cnt_free (v : Count) : (State.free { s with cnt := v }) = s.free := rfl
@[simp] theorem State.with_cnt_pending (v : Count) : (State.pending { s with cnt := v }) = s.pending := rfl
@[simp] theorem State.with_dbg_lad (v : Debug) : (State.lad { s with dbg := v }) = s.lad := rfl
@[simp] theorem State.with_dbg_mod (v : Debug) : (State.mod { s with dbg := v }) = s.mod := rfl
@[simp] theorem State.with_dbg_clk (v : Debug) : (State.clk { s with dbg := v }) = s.clk := rfl
@[simp] theorem State.with_dbg_sup (v : Debug) : (State.sup { s with dbg := v }) = s.sup := rfl
@[simp] theorem State.with_dbg_meas (v : Debug) : (State.meas { s with dbg := v }) = s.meas := rfl
@[simp] theorem State.with_dbg_chg (v : Debug) : (State.chg { s with dbg := v }) = s.chg := rfl
@[simp] theorem State.with_dbg_eng (v : Debug) : (State.eng { s with dbg := v }) = s.eng := rfl
@[simp] theorem State.with_dbg_rack (v : Debug) : (State.rack { s with dbg := v }) = s.rack := rfl
@[simp] theorem State.with_dbg_ring (v : Debug) : (State.ring { s with dbg := v }) = s.ring := rfl
@[simp] theorem State.with_dbg_aux (v : Debug) : (State.aux { s with dbg := v }) = s.aux := rfl
@[simp] theorem State.with_dbg_flt (v : Debug) : (State.flt { s with dbg := v }) = s.flt := rfl
@[simp] theorem State.with_dbg_host (v : Debug) : (State.host { s with dbg := v }) = s.host := rfl
@[simp] theorem State.with_dbg_cfg (v : Debug) : (State.cfg { s with dbg := v }) = s.cfg := rfl
@[simp] theorem State.with_dbg_nv (v : Debug) : (State.nv { s with dbg := v }) = s.nv := rfl
@[simp] theorem State.with_dbg_key (v : Debug) : (State.key { s with dbg := v }) = s.key := rfl
@[simp] theorem State.with_dbg_upd (v : Debug) : (State.upd { s with dbg := v }) = s.upd := rfl
@[simp] theorem State.with_dbg_busA (v : Debug) : (State.busA { s with dbg := v }) = s.busA := rfl
@[simp] theorem State.with_dbg_cnt (v : Debug) : (State.cnt { s with dbg := v }) = s.cnt := rfl
@[simp] theorem State.with_dbg_dbg (v : Debug) : (State.dbg { s with dbg := v }) = v := rfl
@[simp] theorem State.with_dbg_free (v : Debug) : (State.free { s with dbg := v }) = s.free := rfl
@[simp] theorem State.with_dbg_pending (v : Debug) : (State.pending { s with dbg := v }) = s.pending := rfl
@[simp] theorem State.with_free_lad (v : Nat) : (State.lad { s with free := v }) = s.lad := rfl
@[simp] theorem State.with_free_mod (v : Nat) : (State.mod { s with free := v }) = s.mod := rfl
@[simp] theorem State.with_free_clk (v : Nat) : (State.clk { s with free := v }) = s.clk := rfl
@[simp] theorem State.with_free_sup (v : Nat) : (State.sup { s with free := v }) = s.sup := rfl
@[simp] theorem State.with_free_meas (v : Nat) : (State.meas { s with free := v }) = s.meas := rfl
@[simp] theorem State.with_free_chg (v : Nat) : (State.chg { s with free := v }) = s.chg := rfl
@[simp] theorem State.with_free_eng (v : Nat) : (State.eng { s with free := v }) = s.eng := rfl
@[simp] theorem State.with_free_rack (v : Nat) : (State.rack { s with free := v }) = s.rack := rfl
@[simp] theorem State.with_free_ring (v : Nat) : (State.ring { s with free := v }) = s.ring := rfl
@[simp] theorem State.with_free_aux (v : Nat) : (State.aux { s with free := v }) = s.aux := rfl
@[simp] theorem State.with_free_flt (v : Nat) : (State.flt { s with free := v }) = s.flt := rfl
@[simp] theorem State.with_free_host (v : Nat) : (State.host { s with free := v }) = s.host := rfl
@[simp] theorem State.with_free_cfg (v : Nat) : (State.cfg { s with free := v }) = s.cfg := rfl
@[simp] theorem State.with_free_nv (v : Nat) : (State.nv { s with free := v }) = s.nv := rfl
@[simp] theorem State.with_free_key (v : Nat) : (State.key { s with free := v }) = s.key := rfl
@[simp] theorem State.with_free_upd (v : Nat) : (State.upd { s with free := v }) = s.upd := rfl
@[simp] theorem State.with_free_busA (v : Nat) : (State.busA { s with free := v }) = s.busA := rfl
@[simp] theorem State.with_free_cnt (v : Nat) : (State.cnt { s with free := v }) = s.cnt := rfl
@[simp] theorem State.with_free_dbg (v : Nat) : (State.dbg { s with free := v }) = s.dbg := rfl
@[simp] theorem State.with_free_free (v : Nat) : (State.free { s with free := v }) = v := rfl
@[simp] theorem State.with_free_pending (v : Nat) : (State.pending { s with free := v }) = s.pending := rfl
@[simp] theorem State.with_pending_lad (v : List Instr) : (State.lad { s with pending := v }) = s.lad := rfl
@[simp] theorem State.with_pending_mod (v : List Instr) : (State.mod { s with pending := v }) = s.mod := rfl
@[simp] theorem State.with_pending_clk (v : List Instr) : (State.clk { s with pending := v }) = s.clk := rfl
@[simp] theorem State.with_pending_sup (v : List Instr) : (State.sup { s with pending := v }) = s.sup := rfl
@[simp] theorem State.with_pending_meas (v : List Instr) : (State.meas { s with pending := v }) = s.meas := rfl
@[simp] theorem State.with_pending_chg (v : List Instr) : (State.chg { s with pending := v }) = s.chg := rfl
@[simp] theorem State.with_pending_eng (v : List Instr) : (State.eng { s with pending := v }) = s.eng := rfl
@[simp] theorem State.with_pending_rack (v : List Instr) : (State.rack { s with pending := v }) = s.rack := rfl
@[simp] theorem State.with_pending_ring (v : List Instr) : (State.ring { s with pending := v }) = s.ring := rfl
@[simp] theorem State.with_pending_aux (v : List Instr) : (State.aux { s with pending := v }) = s.aux := rfl
@[simp] theorem State.with_pending_flt (v : List Instr) : (State.flt { s with pending := v }) = s.flt := rfl
@[simp] theorem State.with_pending_host (v : List Instr) : (State.host { s with pending := v }) = s.host := rfl
@[simp] theorem State.with_pending_cfg (v : List Instr) : (State.cfg { s with pending := v }) = s.cfg := rfl
@[simp] theorem State.with_pending_nv (v : List Instr) : (State.nv { s with pending := v }) = s.nv := rfl
@[simp] theorem State.with_pending_key (v : List Instr) : (State.key { s with pending := v }) = s.key := rfl
@[simp] theorem State.with_pending_upd (v : List Instr) : (State.upd { s with pending := v }) = s.upd := rfl
@[simp] theorem State.with_pending_busA (v : List Instr) : (State.busA { s with pending := v }) = s.busA := rfl
@[simp] theorem State.with_pending_cnt (v : List Instr) : (State.cnt { s with pending := v }) = s.cnt := rfl
@[simp] theorem State.with_pending_dbg (v : List Instr) : (State.dbg { s with pending := v }) = s.dbg := rfl
@[simp] theorem State.with_pending_free (v : List Instr) : (State.free { s with pending := v }) = s.free := rfl
@[simp] theorem State.with_pending_pending (v : List Instr) : (State.pending { s with pending := v }) = v := rfl

end Sys2Proof.Machine
end

