-- ==== Sys2Proof/Tests/Slice0.lean ====
section
/-! SUPPORT. The author's own tests: ill-formed commands that WellFormed refuses, words no command has, and for each obligation states and
operands that meet the hypotheses of its clauses, at the ends of their ranges. -/

set_option Elab.async false

namespace Sys2Proof.Tests

open Sys2Proof Sys2Proof.Machine

/-! States and frames that the tests share -/

/-- A shelf at rest: Watch, configured for eight cells at position 1, with energy for a commit, four mailboxes in a Service session. -/
def restS : State :=
  let z := State.reset
  let ps : List ParamRec := [⟨0x0200, [281474976776192]⟩, ⟨0x0300, [8]⟩]
  { z with
    cfg := { z.cfg with params := ps, effective := ps }
    clk := { z.clk with inReset := none, notReady := false, railsGood := true, replayed := true, authDone := true, trained := true, now := 5000000000, rstOwnHold := false, rstOwnUntil := none, rstExt := false }
    sup := { z.sup with vmain := 24000, vor := 24000, vhold := 14000, ceff := 100000000, faulty := false, holdup := false }
    key := { z.key with life := .fielded }
    host := { z.host with mail := List.replicate 4 { MailS.reset with level := .service } } }

/-- The same shelf in Run, with ring time and both ports up. -/
def runS : State :=
  { restS with
    clk := { restS.clk with pstate := .run, pll := true, ringKnown := true, ring := 4000000000, timeState := .synced }
    ring := { restS.ring with lka := { restS.ring.lka with state := .up }, lkb := { restS.ring.lkb with state := .up } } }

/-- A request of the host mailbox at Service level. -/
def reqS : Req := ⟨.host, 7, .service⟩

/-- The shelf in Run with five records, the oldest and the newest but one with a full time. -/
def recS : State :=
  let r := fun (n k : Nat) (p : List Byte) => (⟨BitVec.ofNat 32 n, 0, 0, BitVec.ofNat 32 (1000 * (n - 4)), BitVec.ofNat 8 k, 0xFF, 0, p, true⟩ : Rec)
  { runS with nv := { runS.nv with recNext := 9, recs := [r 8 1 [], r 7 4 (leBytes 8 3000), r 6 1 [], r 5 1 [], r 4 4 (leBytes 8 0)] } }

/-- The shelf in Run with a nonce of its last challenge. -/
def keyS : State :=
  { runS with host := { runS.host with mail := List.replicate 4 { MailS.reset with level := .service, lastNonce := List.replicate 32 5 } } }

/-- A level inserted, and one bypassed. -/
def insL : Level := { Level.reset with st := .inserted, insGate := true, bsOk := true }
def bypL : Level := { Level.reset with st := .bypassed, bypGate := true, bsOk := true }

/-- The shelf admitted, with three levels inserted, one in trim, and the others bypassed. -/
def admS : State :=
  { runS with
    lad := { runS.lad with adm := .admitted, supplies := true,
                           levels := List.replicate 3 insL ++ [{ Level.reset with st := .trim, insGate := true, bsOk := true }] ++ List.replicate 12 bypL }
    mod := { runS.mod with trim := some 3 } }

/-- The shelf in Still, its dwell over. -/
def stillS : State :=
  { restS with
    clk := { restS.clk with pstate := .still, dwellUntil := 0, toneDeaf := 0 }
    lad := { restS.lad with levels := List.replicate 16 { Level.reset with st := .parked, cause := 4, bypGate := true, bsOk := true }, sby := true } }

/-- A frame of a shelf, sealed under the rack key for the time that s reads from it. -/
def sealF (s : State) (ftype : BitVec 4) (src : Byte) (body : List Byte) : Frame :=
  let f : Frame := ⟨ftype, false, src, 0, BitVec.ofNat 8 (body.length / 4), BitVec.ofNat 32 (s.clk.ring % 2 ^ 32), body, 0, 0, true⟩
  let f := { f with tag := frameTag (rackKeyOf s) f (frameTime s f) }
  { f with crc := frameCrc f }

/-- The state once a frame of a type has arrived whole on port LKA. -/
def landed (s : State) (ftype : BitVec 4) : State := endReceipt .lka ⟨ftype, false, 0, 0, 0, 0, [], 0, 0, true⟩ s

/-- A COMMAND of an epoch for the period after next. -/
def cmdFrame (s : State) (epoch : Nat) : Frame := sealF s 1 2 (leBytes 4 epoch ++ leBytes 4 (s.clk.ring / 10000 + 2) ++ List.replicate 24 0)

/-- The admitted shelf with its engine on: four members on each tile. -/
def engS : State :=
  let ps : List ParamRec := [⟨0x0200, [281474976776192]⟩, ⟨0x0300, [8]⟩, ⟨0x0600, [1]⟩, ⟨0x060E, [5]⟩]
  { admS with
    cfg := { admS.cfg with params := ps, effective := ps }
    eng := { admS.eng with tiles := admS.eng.tiles.map fun r => { r with members := List.replicate 4 ⟨[1], [1], 1 / 4, none, 0⟩ } } }

/-- A SYNC of a neighbour at position 2. -/
def syncF (s : State) : Frame :=
  sealF s 2 2 (leBytes 4 0 ++ leBytes 8 s.clk.ring ++ List.replicate 12 0 ++ [0, 4] ++ List.replicate 14 0)

/-- A MSG with one byte of a request for shelf 1, from position 3; and an acknowledgement. -/
def msgF (s : State) (seq : Byte) : Frame := sealF s 4 3 ([1, 0, seq, 0, 4, 0, 0, 0] ++ [1, 2, 3, 4])
def ackF (s : State) (seq : Byte) : Frame := sealF s 4 3 ([1, 1, 0, seq, 0, 0, 0, 0])

/-- The admitted shelf, a member of the relay of image 77 with ten frames. -/
def imgS : State :=
  { admS with ring := { admS.ring with relaying := true, relaySrc := false, relayId := 77, relayCount := 10 }, upd := { admS.upd with img := .partly } }
def imgF (s : State) (i : Nat) : Frame := sealF s 5 3 (leBytes 4 77 ++ leBytes 2 i ++ leBytes 2 10 ++ (List.range 256).map fun j => BitVec.ofNat 8 j)

/-- A SLEEP frame of vote 6 with a kind and a position; a SNAP of an order and its time. -/
def slpF (s : State) (kind shelf : Nat) : Frame := sealF s 7 2 (leBytes 4 0 ++ leBytes 4 6 ++ leBytes 8 4003000000 ++ [BitVec.ofNat 8 kind, BitVec.ofNat 8 shelf, 0, 0])
def snapF (s : State) (order due : Nat) : Frame := sealF s 6 2 (leBytes 4 3 ++ leBytes 4 order ++ leBytes 8 due)

/-- The shelf after one journal commit of its configuration; and before its replay. -/
def jrn1S : State := journalCommit 0x1 { JItems.reset with params := some runS.cfg.params } (journalCommit 0x1 { JItems.reset with params := some [] } runS)
def jrnS : State := { restS with clk := { restS.clk with replayed := false }, nv := jrn1S.nv }

/-- A rail, and an eFuse, in a state; and the shelf with a start sequence. -/
def railIs (x : Nat) (st : RailState) (s : State) : State := { s with aux := { s.aux with rails := s.aux.rails.modify x fun r => { r with st := st } } }
def fuseIs (x : Nat) (st : EfuseState) (s : State) : State := { s with aux := { s.aux with fuses := s.aux.fuses.modify x fun r => { r with st := st, since := 5000000000 } } }
def seqS (l : List Int) : State :=
  { runS with
    cfg := { runS.cfg with effective := ⟨0x08C0, l ++ List.replicate (16 - l.length) 0⟩ :: runS.cfg.effective }
    aux := { runS.aux with seqRun := .starting, seqPos := 0 } }

/-- The shelf in the Factory state, where the debug port is open. -/
def dbgS : State := { runS with key := { runS.key with life := .factory } }

/-- The shelf in Run with an open nonce and a Service credential; the MAC that raises the session to Service. -/
def nonceS : State :=
  { runS with
    host := { runS.host with mail := List.replicate 4 { MailS.reset with
      level := .service, nonce := some (List.replicate 32 5, 5000000000), nonceSv := some [1, 2, 3] } } }
def goodMac : List Byte := hmac [1, 2, 3] (macInput (List.replicate 32 5) 3 .host)

theorem goodMac_length : goodMac.length = 32 := hmac_length _ _
theorem goodMac_valid : macValid nonceS .host .service goodMac = true := by
  change (decide ((5000000000 : Nat) ≤ 5000000000 + sec 1) && goodMac == fitBytes 32 goodMac) = true
  rw [fitBytes_eq goodMac_length, beq_self_eq_true]; rfl

/-- A wrapped pack key, sealed as its maker seals it, and the key in it. -/
def goodWrap : List Byte := wrapKey keyS (List.replicate 32 5)
def goodTag : List Byte := gcmTag goodWrap ((List.replicate 32 (5 : Byte)).take 12) (2 :: bvBytes 8 Config.deviceId) (List.replicate 32 0)
def goodBlob : List Byte := List.replicate 32 0 ++ goodTag
def goodKey : List Byte := gcmCrypt goodWrap ((List.replicate 32 (5 : Byte)).take 12) (List.replicate 32 0)

theorem goodTag_length : goodTag.length = 16 := gcmTag_length _ _ _ _ (by simp [goodWrap, wrapKey])
theorem goodBlob_length : goodBlob.length = 48 := by simp [goodBlob, goodTag_length]
theorem goodBlob_unwraps : unwrap keyS .host 2 goodBlob = some goodKey := by
  have h1 : bytesAt goodBlob 0 32 = List.replicate 32 0 := by
    simpa [goodBlob] using bytesAt_eq [] (List.replicate 32 (0 : Byte)) goodTag rfl (by simp)
  have h2 : bytesAt goodBlob 32 16 = goodTag := by
    simpa [goodBlob] using bytesAt_eq (List.replicate 32 (0 : Byte)) goodTag [] (by simp) goodTag_length
  have h3 : (mail keyS .host).lastNonce = List.replicate 32 5 := by decide +kernel
  simp only [unwrap, h1, h2, h3]
  rw [if_neg, if_neg]
  · rfl
  · decide
  · change ¬(((List.replicate 32 (5 : Byte)).isEmpty || goodTag != goodTag) = true)
    simp

/-- The shelf while a token authenticates, and the token's right response. -/
def packS : State :=
  { runS with chg := { runS.chg with attempt := true, challenge := List.replicate 32 3 }, key := { runS.key with packKey := some [1, 2] } }
def goodResp : List Byte := (hmac [1, 2] (List.replicate 32 3 ++ bvBytes 8 (10 : BitVec 64))).take 16
theorem goodResp_expected : expectedResponse packS 10 = some (fitBytes 16 goodResp) := by
  rw [fitBytes_eq (by simp [goodResp])]; rfl

/-- A Wellhead with a set staged on every shelf; the digest that RACK_COMMIT names. -/
def commitS : State :=
  { runS with
    rack := { runS.rack with wellhead := true, staged := true, stage := [⟨0x0701, [100]⟩] }
    cfg := { runS.cfg with hasPending := true, pending := [⟨0x0701, [100]⟩] } }
theorem digest_bytes (set : List ParamRec) : bvBytes 8 (BitVec.ofNat 64 (leNat (digestOf set))) = digestOf set := by
  have h : (digestOf set).length = 8 := by simp [digestOf]
  have l := leNat_lt (digestOf set)
  rw [h] at l
  rw [bvBytes, BitVec.toNat_ofNat, Nat.mod_eq_of_lt (by omega), ← h, leBytes_leNat]

theorem sealF_crc (s : State) (ftype : BitVec 4) (src : Byte) (body : List Byte) :
    (sealF s ftype src body).crc = frameCrc (sealF s ftype src body) := by
  exact frameCrc_crc ..
theorem sealF_tag (s : State) (ftype : BitVec 4) (src : Byte) (body : List Byte) : (sealF s ftype src body).tag
    = frameTag (rackKeyOf s) (sealF s ftype src body) (frameTime s (sealF s ftype src body)) := by
  exact (congrArg (frameTag _ _) (frameTime_sealed ..)).trans (frameTag_sealed ..)

/-- A sealed frame that is new, in its window and under a key that stands is applied: e is the state once the frame has arrived whole. -/
theorem applies_seal (p : Port) (s e : State) (ftype : BitVec 4) (src : Byte) (body : List Byte) (he : endReceipt p (sealF e ftype src body) s = e)
    (h : onRing s = true ∧ (portOf s p).state = .up ∧ appliesFrames s (sealF e ftype src body) = true ∧ keyGone s = false
      ∧ alreadySeen e (sealF e ftype src body) = false
      ∧ (if (sealF e ftype src body).ftype = 1 then ¬(10000 * commandPeriod e (sealF e ftype src body) < e.clk.ring + 1000)
         else inWindow e (frameTime e (sealF e ftype src body)) = true)) : Applies p (sealF e ftype src body) s := by
  obtain ⟨h1, h2, h3, h4, h5, h6⟩ := h
  have e1 := sealF_crc e ftype src body
  have e2 := sealF_tag e ftype src body
  have e3 : (sealF e ftype src body).eof = true := rfl
  refine ⟨h1, h2, h3, h4, ?_⟩
  rw [he]
  unfold whyRejected
  rw [e3, if_neg (by simp), if_neg (by rw [e1]; simp), if_neg (by rw [e2]; simp), h5]
  split at h6 <;> rename_i ht
  · rw [if_neg (by decide), if_pos ht, if_neg h6]
  · rw [if_neg (by decide), if_neg ht, if_pos h6]

theorem sync_seal (p : Port) (s : State) (src : Byte) (body : List Byte)
    (h : keyGone s = false ∧ (sealF s 2 src body).src ≠ 0 ∧ (s.clk.ringKnown && !s.clk.firstSyncDue) = true
      ∧ alreadySeen s (sealF s 2 src body) = false ∧ inWindow s (frameTime s (sealF s 2 src body)) = true) :
    syncRejected s p (sealF s 2 src body) = none := by
  obtain ⟨h1, h2, h3, h4, h5⟩ := h
  have e1 := sealF_crc s 2 src body
  have e2 := sealF_tag s 2 src body
  have e3 : (sealF s 2 src body).eof = true := rfl
  unfold syncRejected unsealed
  rw [e3, if_neg (by simp), if_neg (by rw [e1]; simp), h1, if_neg (by simpa using h2), if_neg (by rw [e2]; simp), h3, h4, h5]
  simp

/-! Ill-formed commands, one for each check of WellFormed -/

theorem test_illformed_records : Instr.wf (.cfgStage reqS (List.replicate 4 0)) = false ∧ Instr.wf (.rackStage reqS (List.replicate 245 0)) = false
    ∧ Instr.wf (.rackStageReceived 1 []) = false ∧ Instr.wf (.rackStageReceived 0 (List.replicate 5 0)) = false
    ∧ Instr.wf (.rackStageReceived 33 (List.replicate 5 0)) = false ∧ Instr.wf (.cfgRead reqS 0 []) = false
    ∧ Instr.wf (.cfgRead reqS 0 (List.replicate 121 0)) = false := by decide +kernel
theorem test_illformed_data : Instr.wf (.modelWrite reqS 0 (List.replicate 12 0)) = false ∧ Instr.wf (.imageWrite reqS 0 (List.replicate 240 0)) = false
    ∧ Instr.wf (.relay reqS 2 1 0x0101 []) = false ∧ Instr.wf (.relay reqS 2 0 0x0101 (List.replicate 241 0)) = false
    ∧ Instr.wf (.authResponse reqS 3 (List.replicate 31 0)) = false ∧ Instr.wf (.identity reqS (List.replicate 33 0)) = false
    ∧ Instr.wf (.keyInstall reqS 1 1 (List.replicate 48 0)) = false ∧ Instr.wf (.keyInstall reqS 1 0 (List.replicate 47 0)) = false
    ∧ Instr.wf (.lifecycleSet reqS 2 0 (List.replicate 95 0)) = false ∧ Instr.wf (.registerWrite 0x0C []) = false := by decide +kernel
theorem test_illformed_events : Instr.wf (.cellSample []) = false ∧ Instr.wf (.integrationInterval (List.replicate 16 1601)) = false
    ∧ Instr.wf (.ntcSlot 1000001) = false ∧ Instr.wf (.packAuthAttempt (some (0, List.replicate 15 0))) = false
    ∧ Instr.wf (.versionReport 1 []) = false
    ∧ Instr.wf (.activationRequest 33 (List.replicate 16 0)) = false ∧ Instr.wf (.grantReceived []) = false
    ∧ Instr.wf (.dieTempReading true 6 0) = false := by decide +kernel
theorem test_illformed_bounds : Instr.wf (.imageWrite reqS 0 []) = false ∧ Instr.wf (.lifecycleSet reqS 2 1 (List.replicate 96 0)) = false
    ∧ Instr.wf (.integrationInterval (List.replicate 15 0)) = false ∧ Instr.wf (.versionReport 0 (List.replicate 16 0x10)) = false
    ∧ Instr.wf (.activationRequest 1 [0x11]) = false
    ∧ Instr.wf (.msgReceived .lka ⟨4, false, 1, 0, 129, 0, List.replicate 516 0, 0, 0, true⟩) = false := by decide +kernel
theorem test_illformed_frames :
    let long : Frame := ⟨3, false, 1, 0, 2, 0, List.replicate 4 0, 0, 0, true⟩
    let stamped : Frame := ⟨1, false, 1, 0, 1, 5, List.replicate 4 0, 0, 0, true⟩
    Instr.wf (.sleepFrameReceived .lka long) = false ∧ Instr.wf (.commandReceived .lka stamped) = false ∧ Instr.wf (.statusReceived .lkb long) = false
    ∧ Instr.wf (.frameForward .lka long) = false ∧ Instr.wf (.syncReceived .lkb stamped) = false ∧ Instr.wf (.msgReceived .lka long) = false
    ∧ Instr.wf (.imageFrameReceived .lka long) = false ∧ Instr.wf (.snapReceived .lka long) = false := by decide +kernel

/-! Words of the opcode table, and worked examples of the spec -/

theorem test_no_word_spells_a_command : decodeTableWord 16 0x0101 = none ∧ restS.withFetchWord 16 0x0101 = restS := by decide +kernel
/-- 14_command_reference.md, Example: staging two settings on shelf 12. -/
theorem test_staging_example : stageRecords [] [] [] false 128 61 [0x25, 0x03, 0x01, 0x01, 0x14, 0x07, 0x05, 0x01, 0x02, 0x0A, 0x2D] [] 0
    = ([⟨0x0325, [20]⟩, ⟨0x0507, [10, 45]⟩], 2, none) := by decide +kernel
theorem test_staging_example_entry : (requestBytes 0x0201 0x31 .service [0x25, 0x03, 0x01, 0x01, 0x14, 0x07, 0x05, 0x01, 0x02, 0x0A, 0x2D]).take 6
    = [0x01, 0x02, 0x31, 0x00, 0x0B, 0x00] := by decide +kernel
/-- 07_charge_and_capacity.md, Table 7-5a: the span of cell 5 gives 297.60 Ah. -/
theorem test_span_example :
    let cell : CellAcc := { CellAcc.reset with qin := 14980400000000 * 65536, spanQ := 4310000000000, spanAt := 0, spanOpen := true, cap := 298000, capLearned := true, spanFirst := false }
    let s : State := { runS with clk := { runS.clk with ring := 12600000000000 }, chg := { runS.chg with cells := List.replicate 16 cell }
                                 cfg := { runS.cfg with effective := ⟨0x050B, [300000]⟩ :: runS.cfg.effective } }
    (judgeSpan s 4).toOption = some 297600
    ∧ (socOf { cell with qin := 13900400000000 * 65536, cap := 297600, full := ⟨14980400000000, 0, true⟩ }).map (fun x => decide (absRat (x - 89919 / 1000) < 1 / 2000))
      = some true := by decide +kernel
/-- 05_ladder_modulation.md, worked example: the water level of shelf 12 at 400 A is 0.668205. -/
theorem test_water_level_example :
    let o := fun (k : Nat) => if k = 2 ∨ k = 8 then (1 / 50 : Rat) else if k = 6 ∨ k = 13 then -1 / 50 else 0
    let xs := (List.range 16).map fun k => (⟨k, 13 / 4, o k, if k = 4 then 1 / 2 else 1⟩ : Share)
    (solveLambda 0 xs (171 / 5)).map (fun l => decide (absRat (l - 668205 / 1000000) < 1 / 1000000)) = some true := by decide +kernel

/-! Commands whose statements range over every state -/

theorem test_wit_queue : ∃ t, exec .uartIdle runS = .next t := ⟨_, rfl⟩
theorem test_wit_areas : isLinkRow (.hstatRead 0x04 4) = true ∧ (∃ t, exec (.hstatRead 0x04 4) runS = .next t) ∧ Area.lad ∉ changes (.hstatRead 0x04 4)
    ∧ (requestOf (.sysInfo reqS)).isSome = true ∧ (∃ t, exec (.sysInfo reqS) runS = .next t) ∧ Area.key ∉ changes (.sysInfo reqS) :=
  ⟨rfl, ⟨_, rfl⟩, by decide, rfl, ⟨_, rfl⟩, by decide⟩
theorem test_wit_invariants :
    let s : State := { runS with pending := [.uartIdle] }
    StoresWf s ∧ GatesApart s ∧ QueuesBounded s ∧ ∃ t, step s = .next t :=
  ⟨by decide +kernel, by decide +kernel, by decide +kernel, _, rfl⟩

/-! What meets the hypotheses of each obligation -/

theorem test_wit_AStepRunsTheFrontCommand :
    (let s : State := State.reset; s.pending = []) :=
  by decide +kernel

theorem test_wit_NoResponseIsLost :
    (let s : State := { runS with clk := { runS.clk with notReady := true } }; let bytes : List Byte := List.replicate 256 1;
        portAnswers s = true ∧ s.host.mail.length = 4 ∧ (bytes.length ≠ 256 ∨ hostReady s = false))
    ∧ (let s : State := runS; let bytes : List Byte := List.replicate 255 1; portAnswers s = true ∧ s.host.mail.length = 4
        ∧ (bytes.length ≠ 256 ∨ hostReady s = false))
    ∧ (let s : State := { runS with host := { runS.host with mail := List.replicate 4 { MailS.reset with reqQ := List.replicate 8 [1] } } };
        let bytes : List Byte := List.replicate 256 1; portAnswers s = true ∧ s.host.mail.length = 4 ∧ bytes.length = 256 ∧ hostReady s = true
        ∧ s.clk.inReset = none ∧ 8 ≤ (mail s .host).reqQ.length)
    ∧ (let s : State := runS; let req : Req := reqS; let mb := (.twb : Mailbox); s.host.mail.length = 4 ∧ Room req.mb s ∧ mb ≠ req.mb
        ∧ processorRuns s = true)
    ∧ (let s : State := { runS with host := { runS.host with mail := List.replicate 4 { MailS.reset with rspQ := List.replicate 8 (response reqS 4 true 0 []) } } }; let req : Req := reqS; s.host.mail.length = 4 ∧ ¬Room req.mb s)
    ∧ (let s : State := { runS with host := { runS.host with mail := List.replicate 4 { MailS.reset with held := [response reqS 5 true 0 []], rspQ := List.replicate 7 (response reqS 4 true 0 []) } } }; let mb : Mailbox := .twb; let e : Entry := response reqS 5 true 0 []; let es : List Entry := []; (mb = .host ∨ mb = .twb) ∧ s.host.mail.length = 4 ∧ (mail s mb).held = e :: es ∧ (mail s mb).rspQ.length < 8) :=
  ⟨by decide +kernel,
   by decide +kernel,
   by decide +kernel,
   by decide +kernel,
   by decide +kernel⟩

theorem test_wit_AMemberRefusesWellheadCommands :
    (let s : State := runS; let c : Instr := .snapOrder reqS 5; let req : Req := reqS; let op : Nat := 0x0C03;
        let payload : List Byte := bvBytes 8 (5 : BitVec 64); let r : Rules := ⟨.service, true, true, false⟩; c.wf = true
        ∧ requestOf c = some (req, op, payload) ∧ rulesOf s c = some r ∧ (0x0701 ≤ op ∧ op ≤ 0x0708 ∨ op = 0x0C03) ∧ s.rack.wellhead = false
        ∧ LevelOk req r.least s ∧ tagInUse req s = false ∧ (s.flt.safe = true → r.least = .monitor) ∧ s.clk.pstate ≠ .watch)
    ∧ (let s : State := { runS with rack := { runS.rack with wellhead := true } }; let c : Instr := .handover reqS; let req : Req := reqS;
        let op : Nat := 0x0708; let payload : List Byte := []; let r : Rules := ⟨.service, true, true, false⟩; c.wf = true
        ∧ requestOf c = some (req, op, payload) ∧ rulesOf s c = some r ∧ (0x0701 ≤ op ∧ op ≤ 0x0708 ∨ op = 0x0C03) ∧ s.rack.wellhead = true) :=
  by decide +kernel

theorem test_wit_CfgReadTakesIdsInOrder :
    (let s : State := runS; let req : Req := reqS; let source : Byte := 1; let ids : List (BitVec 16) := List.replicate 120 0x0300;
        Serves req (.atLevel .monitor) s ∧ 1 ≤ ids.length ∧ ids.length ≤ 120 ∧ source.toNat ≤ 1 ∧ (∀ i ∈ ids, (paramSpec i.toNat).isSome)) :=
  ⟨by decide +kernel, by decide +kernel, by decide +kernel, by decide +kernel, fun i h => by rw [List.eq_of_mem_replicate h]; decide +kernel⟩

theorem test_wit_AnEntryRunsTheCommandItSpells :
    (let s : State := runS; let c : Instr := .relay reqS 2 0 0x0101 [7]; let req : Req := reqS; let op : Nat := 0x070A;
        let payload : List Byte := [2, 0, 1, 1, 7]; c.wf = true ∧ requestOf c = some (req, op, payload) ∧ s.cfg.commitBusy = false) :=
  by decide +kernel

theorem test_wit_AFailedCheckExecutesNothing :
    (let s : State := restS; let c : Instr := .rackStatus reqS; let req : Req := reqS; let op : Nat := 0x0701; let payload : List Byte := [];
        let r : Rules := ⟨.monitor, true, true, false⟩; let code : Byte := 0x12; c.wf = true ∧ requestOf c = some (req, op, payload)
        ∧ rulesOf s c = some r ∧ firstFailure req r s = some code ∧ s.cfg.commitBusy = false)
    ∧ (let s : State := runS; let c : Instr := .sysInfo ⟨.host, 7, .maker⟩; let req : Req := ⟨.host, 7, .maker⟩; let op : Nat := 0x0101;
        let payload : List Byte := []; let r : Rules := .atLevel .monitor; let code : Byte := 0x20; c.wf = true
        ∧ requestOf c = some (req, op, payload) ∧ rulesOf s c = some r ∧ firstFailure req r s = some code ∧ s.cfg.commitBusy = false)
    ∧ (let s : State := { runS with sup := { runS.sup with holdup := true } }; let c : Instr := .senseClear reqS 1; let req : Req := reqS;
        let op : Nat := 0x0405; let payload : List Byte := bvBytes 4 (1 : BitVec 32); let r : Rules := ⟨.service, false, false, true⟩;
        let code : Byte := 0x30; c.wf = true ∧ requestOf c = some (req, op, payload) ∧ rulesOf s c = some r ∧ firstFailure req r s = some code
        ∧ s.cfg.commitBusy = false) :=
  ⟨by decide +kernel,
   by decide +kernel⟩

theorem test_wit_HostRegistersReadAndWrite :
    (let s : State := runS; let addr : BitVec 7 := 0x05; portAnswers s = true ∧ s.host.mail.length = 4 ∧ addr ≠ 0x40)
    ∧ (let s : State := runS; let addr : BitVec 7 := 0x14; portAnswers s = true ∧ s.host.mail.length = 4 ∧ 0x14 ≤ addr.toNat ∧ addr ≠ 0x20) :=
  by decide +kernel

theorem test_wit_DoorEmptiesOrDropsTheSession :
    (let s : State := runS; portAnswers s = true ∧ s.host.mail.length = 4) :=
  by decide +kernel

theorem test_wit_WindowsPushAndPopWholeEntries :
    (let s : State := runS; let bytes : List Byte := List.replicate 256 1; portAnswers s = true ∧ s.host.mail.length = 4 ∧ bytes.length = 256
        ∧ hostReady s = true ∧ s.clk.inReset = none ∧ (mail s .host).reqQ.length < 8)
    ∧ (let s : State := { runS with host := { runS.host with mail := List.replicate 4 { MailS.reset with rspQ := [response reqS 5 true 0 [1, 2, 3]] } } }; let e : Entry := response reqS 5 true 0 [1, 2, 3]; let es : List Entry := []; portAnswers s = true ∧ s.host.mail.length = 4 ∧ (mail s .host).rspQ = e :: es)
    ∧ (let s : State := runS; portAnswers s = true ∧ s.host.mail.length = 4 ∧ (mail s .host).rspQ = []) :=
  ⟨by decide +kernel,
   by decide +kernel⟩

theorem test_wit_TwoWireTargetAndUart :
    (let s : State := runS; let bytes : List Byte := List.replicate 256 1; s.host.mail.length = 4 ∧ busBAnswers s = true ∧ bytes.length = 256
        ∧ hostReady s = true ∧ s.clk.inReset = none ∧ (mail s .twb).reqQ.length < 8)
    ∧ (let s : State := runS; let p : Byte := 0; let bytes : List Byte := List.replicate 255 1; s.host.mail.length = 4 ∧ busBAnswers s = true
        ∧ bytes ≠ [] ∧ (p ≠ 0 ∨ bytes.length ≠ 256))
    ∧ (let s : State := { runS with host := { runS.host with mail := List.replicate 4 { MailS.reset with rspQ := [response reqS 5 true 0 [1, 2, 3]] } } }; let e : Entry := response reqS 5 true 0 [1, 2, 3]; let es : List Entry := []; s.host.mail.length = 4 ∧ busBAnswers s = true ∧ (mail s .twb).rspQ = e :: es)
    ∧ (let s : State := runS; let num : Nat := 4; s.host.mail.length = 4 ∧ busBAnswers s = true ∧ num ≤ 4)
    ∧ (let s : State := { runS with host := { runS.host with uartBuf := List.replicate 254 3 } }; s.host.mail.length = 4 ∧ uartRuns s = true
        ∧ s.host.uartSkip = false ∧ s.host.uartBuf.length < 255)
    ∧ (let s : State := { runS with host := { runS.host with uartBuf := List.replicate 255 3 } }; s.host.mail.length = 4 ∧ uartRuns s = true
        ∧ s.host.uartSkip = false ∧ s.host.uartBuf.length = 255 ∧ s.clk.inReset = none ∧ (mail s .uart).reqQ.length < 8) :=
  ⟨by decide +kernel,
   by decide +kernel,
   by decide +kernel,
   by decide +kernel,
   by decide +kernel⟩

theorem test_wit_RequestsAreTakenInTurn :
    (let s : State := { runS with host := { runS.host with mail := runS.host.mail.modify 3 fun m => { m with reqQ := [requestBytes 0x0101 3 .monitor []] } } }; let mb : Mailbox := .twb; let op : Nat := 0x0101; let row : OpRow := ⟨0x0101, 0, 0, .monitor⟩; let tag : Byte := 3; let level : Access := .monitor; let payload : List Byte := []; let rest : List (List Byte) := []; processorRuns s = true ∧ s.host.mail.length = 4 ∧ (serveOrderOf s.host.turn).find? (servable s) = some mb ∧ (mail s mb).reqQ = requestBytes op tag level payload :: rest ∧ op < 65536 ∧ opRow op s = some row ∧ row.admits payload.length = true ∧ Access.code level ≤ sessionCode s mb ∧ Access.code row.least ≤ Access.code level)
    ∧ (let s : State := runS; processorRuns s = true ∧ s.host.mail.length = 4 ∧ (serveOrderOf s.host.turn).find? (servable s) = none) :=
  ⟨⟨by decide +kernel, by decide +kernel, by decide +kernel, rfl, by decide +kernel, by decide +kernel, by decide +kernel, by decide +kernel, by decide +kernel⟩,
   by decide +kernel⟩

theorem test_wit_ResponsesAreGivenOnceTheyAreDue :
    (let s : State := { runS with host := { runS.host with mail := List.replicate 4 { MailS.reset with refusal := some (reqS, 0x0A02, 5000000000), cause := some .mac, busy := true } } }; let req : Req := reqS; let op : BitVec 16 := 0x0A02; let at_ : Nat := 5000000000; let why : RefusalCause := .mac; s.host.mail.length = 4 ∧ (req.mb = .host ∨ req.mb = .twb) ∧ (mail s req.mb).refusal = some (req, op, at_) ∧ (mail s req.mb).cause = some why ∧ Room req.mb s ∧ (mail s req.mb).dropRun = [] ∧ s.dbg.haltedCp = false)
    ∧ (let s : State := { runS with host := { runS.host with running := [⟨reqS, 0x0604, [], 0, [1], true, 0⟩] } };
        let r : Running := ⟨reqS, 0x0604, [], 0, [1], true, 0⟩; s.host.mail.length = 4 ∧ (r.req.mb = .host ∨ r.req.mb = .twb)
        ∧ runningOf r.req.mb r.req.tag s = some r ∧ r.done = true ∧ Room r.req.mb s ∧ (mail s r.req.mb).dropRun = [] ∧ s.dbg.haltedCp = false)
    ∧ (let s : State := { runS with host := { runS.host with running := [⟨reqS, 0x070A, [4, 2], 0, [], false, 0⟩] } };
        let r : Running := ⟨reqS, 0x070A, [4, 2], 0, [], false, 0⟩; s.host.mail.length = 4 ∧ (r.req.mb = .host ∨ r.req.mb = .twb)
        ∧ runningOf r.req.mb r.req.tag s = some r ∧ r.done = false ∧ r.opcode = 0x070A ∧ Room r.req.mb s ∧ (mail s r.req.mb).dropRun = []
        ∧ s.dbg.haltedCp = false)
    ∧ (let s : State := { runS with host := { runS.host with running := [⟨reqS, 0x0107, [2, 1], 0, [], false, 0⟩] } };
        let r : Running := ⟨reqS, 0x0107, [2, 1], 0, [], false, 0⟩; s.host.mail.length = 4 ∧ s.host.running = [r] ∧ r.opcode = 0x0107
        ∧ r.done = false ∧ s.busA.held = false) :=
  ⟨by decide +kernel,
   by decide +kernel,
   by decide +kernel⟩

theorem test_wit_SystemReadsAnswer :
    (let s : State := restS; let req : Req := reqS; Serves req (.atLevel .monitor) s) :=
  by decide +kernel

theorem test_wit_SystemCommandsAct :
    (let s : State := runS; let req : Req := reqS; let kind := (2 : Byte); Open req (.atLevel .service) s ∧ kind ≠ 0x01)
    ∧ (let s : State := { runS with key := { runS.key with life := .factory } }; let req : Req := reqS; let target := (0x0101 : BitVec 16);
        let kind := (2 : Byte); Open req (.atLevel .service) s ∧ s.key.life = .factory ∧ injectTarget kind.toNat target.toNat = true ∧ kind ≠ 1
        ∧ target ≠ 0x0220)
    ∧ (let s : State := { runS with key := { runS.key with life := .factory } }; let req : Req := reqS; let target := (29 : BitVec 16);
        Open req (.atLevel .service) s ∧ s.key.life = .factory ∧ 3 ≤ target.toNat ∧ target.toNat ≤ 29)
    ∧ (let s : State := { runS with key := { runS.key with life := .factory } }; let req : Req := reqS; let value := (2500 : BitVec 32);
        Open req (.atLevel .service) s ∧ s.key.life = .factory ∧ value ≠ 0 ∧ (∀ i ∈ s.flt.injections, i.target ≠ 0x0220))
    ∧ (let s : State := runS; let req : Req := reqS; let block := (4 : Byte); let action := (2 : Byte); Open req (.atLevel .service) s
        ∧ 1 ≤ block.toNat ∧ block.toNat ≤ 4 ∧ action.toNat ≤ 2 ∧ carries block req.mb = false ∧ ¬(block = 2 ∧ action ≠ 0 ∧ s.busA.held = true))
    ∧ (let s : State := { runS with busA := { runS.busA with held := true } }; let req : Req := reqS; let action := (2 : Byte);
        Open req (.atLevel .service) s ∧ action ≠ 0 ∧ action.toNat ≤ 2 ∧ s.busA.held = true) :=
  ⟨by decide +kernel,
   by decide +kernel,
   by decide +kernel,
   by decide +kernel,
   by decide +kernel⟩

theorem test_wit_FaultClearClearsWhatIsOver :
    (let s : State := runS; let req : Req := reqS; let mask : BitVec 32 := 0xFFFFFFFF; Open req (.atLevel .service) s
        ∧ (mask.getLsbD 31 = true → causePersists s = false)) :=
  by decide +kernel

theorem test_wit_StagingKeepsWhatItTook :
    (let s : State := runS; let req : Req := reqS; let records : List Byte := [0x00, 0x03, 1, 1, 9]; Open req (.atLevel .service) s
        ∧ 5 ≤ records.length ∧ records.length ≤ 244) :=
  by decide +kernel

theorem test_wit_CommitOrDiscardOfNothingChangesNoValue :
    (let s : State := restS; let req : Req := reqS; Open req (.atLevel .service) s)
    ∧ (let s : State := { runS with host := { runS.host with mail := List.replicate 4 { MailS.reset with level := .service, staged := [⟨0x0300, [9]⟩] } } }; let req : Req := reqS; let expect : BitVec 32 := 5; Open req ⟨.service, false, false, true⟩ s ∧ ((mail s req.mb).staged = [] ∨ (expect ≠ 0 ∧ expect ≠ s.cfg.gen))) :=
  by decide +kernel

theorem test_wit_CommitWritesTheWholeSet :
    (let s : State := { runS with host := { runS.host with mail := List.replicate 4 { MailS.reset with level := .service, staged := [⟨0x0300, [9]⟩] } } }; let req : Req := reqS; let expect : BitVec 32 := 0; let st := (mail s req.mb).staged; let set := overlay s.cfg.params st; Open req ⟨.service, false, false, true⟩ s ∧ st ≠ [] ∧ (expect = 0 ∨ expect = s.cfg.gen) ∧ hasRoom s (itemBytes s { JItems.reset with params := some set }) = true ∧ firstBad s.cfg.params st (fittedNow s) (filesNow s) = none ∧ modelRefusal s st = none ∧ (isAdmitted s = true → ∀ p ∈ st, notAdmittedId p.id = false)) :=
  by decide +kernel

theorem test_wit_LadderCommandsAct :
    (let s : State := admS; let req : Req := reqS; Open req (.atLevel .operator) s ∧ s.clk.pstate = .run)
    ∧ (let s : State := restS; let req : Req := reqS; Open req (.atLevel .operator) s ∧ s.clk.pstate ≠ .run ∧ s.lad.levels.length = 16)
    ∧ (let s : State := admS; let req : Req := reqS; Open req (.atLevel .operator) s ∧ checkRuns s = false ∧ s.lad.levels.length = 16
        ∧ (stuckLevels s = [] ∨ packOpen s = true))
    ∧ (let s : State := { runS with lad := { runS.lad with levels := List.replicate 16 bypL } }; let req : Req := reqS;
        Open req (.atLevel .operator) s ∧ checkRuns s = false ∧ outOrRetired s = true ∧ absRat (reportedA s) < 2)
    ∧ (let s : State := runS; let req : Req := reqS; Open req ⟨.service, false, false, true⟩ s ∧ isAdmitted s = false ∧ checkRuns s = false
        ∧ s.lad.levels.length = 16)
    ∧ (let s : State := { runS with lad := { runS.lad with sby := true } }; let req : Req := reqS; Open req (.atLevel .operator) s
        ∧ checkRuns s = false ∧ s.lad.sby = true ∧ isAdmitted s = false ∧ toCheck s ≠ []) :=
  ⟨by decide +kernel,
   by decide +kernel,
   by decide +kernel,
   by decide +kernel,
   by decide +kernel⟩

theorem test_wit_MeasurementCommandsAnswer :
    (let s : State := runS; let req : Req := reqS; Serves req (.atLevel .monitor) s ∧ Open req ⟨.service, false, false, true⟩ s) :=
  by decide +kernel

theorem test_wit_AccountCommandsAnswer :
    (let s : State := runS; let req : Req := reqS; Open req (.atLevel .monitor) s ∧ Open req (.atLevel .operator) s ∧ s.chg.attempt = false)
    ∧ (let s : State := { runS with chg := { runS.chg with attempt := true } }; let req : Req := reqS; Open req (.atLevel .operator) s
        ∧ s.chg.attempt = true) :=
  by decide +kernel

theorem test_wit_EngineCommandsAnswer :
    (let s : State := runS; let req : Req := reqS; Open req ⟨.monitor, true, false, false⟩ s)
    ∧ (let s : State := runS; let req : Req := reqS; Open req ⟨.monitor, true, false, false⟩ s)
    ∧ (let s : State := runS; let req : Req := reqS; let slot : Byte := 1; Open req (.atLevel .monitor) s ∧ slot.toNat ≤ 1)
    ∧ (let s : State := runS; let req : Req := reqS; let slot : Byte := 2; Open req (.atLevel .monitor) s ∧ 1 < slot.toNat) :=
  ⟨by decide +kernel,
   by decide +kernel,
   by decide +kernel⟩

theorem test_wit_ModelWriteStoresExactlyItsData :
    (let s : State := runS; let req : Req := reqS; let offset : BitVec 32 := 262136; let data : List Byte := List.replicate 8 1;
        Open req ⟨.service, false, false, true⟩ s ∧ 8 ≤ data.length ∧ data.length ≤ 232 ∧ data.length % 8 = 0 ∧ offset.toNat % 8 = 0
        ∧ offset.toNat + data.length ≤ 262144 ∧ Memory.wf s.nv.fileStaged = true)
    ∧ (let s : State := runS; let req : Req := reqS; let offset : BitVec 32 := 0; let data : List Byte := List.replicate 232 1;
        Open req ⟨.service, false, false, true⟩ s ∧ 8 ≤ data.length ∧ data.length ≤ 232 ∧ data.length % 8 = 0 ∧ offset.toNat % 8 = 0
        ∧ offset.toNat + data.length ≤ 262144 ∧ Memory.wf s.nv.fileStaged = true) :=
  by decide +kernel

theorem test_wit_RackReadsAndDispatch :
    (let s : State := { runS with rack := { runS.rack with wellhead := true } }; let req : Req := reqS;
        Serves req ⟨.monitor, true, true, false⟩ s ∧ Serves req (.atLevel .monitor) s)
    ∧ (let s : State := { runS with rack := { runS.rack with wellhead := true } }; let req : Req := reqS; let vd : BitVec 16 := 15000;
        let tApply : BitVec 64 := 5000000000; let kind : Byte := 1; Open req ⟨.operator, true, true, false⟩ s ∧ vd.toNat ≤ 15000
        ∧ tApply.toNat ≤ s.clk.ring + sec 1 ∧ kind.toNat ≤ 1)
    ∧ (let s : State := { runS with rack := { runS.rack with wellhead := true } }; let req : Req := reqS; let contactor : Byte := 1;
        Open req ⟨.operator, true, true, false⟩ s ∧ contactor.toNat ≤ 1 ∧ s.rack.busHu = false)
    ∧ (let s : State := { runS with rack := { runS.rack with wellhead := true, busHu := true } }; let req : Req := reqS;
        Open req ⟨.operator, true, true, false⟩ s ∧ s.rack.busHu = true) :=
  ⟨by decide +kernel,
   by decide +kernel,
   by decide +kernel⟩

theorem test_wit_RackChangesBegin :
    (let s : State := { runS with rack := { runS.rack with wellhead := true } }; let req : Req := reqS; Open req ⟨.operator, true, true, false⟩ s
        ∧ mayBeFed s = false ∧ s.rack.busHu = false ∧ s.rack.takeoverAt + sec 1 ≤ s.clk.now ∧ s.rack.voting = false ∧ s.rack.sleepAt = none
        ∧ s.rack.staging = false ∧ s.rack.staged = false ∧ s.cfg.hasPending = false ∧ s.ring.relaying = false)
    ∧ (let s : State := { runS with rack := { runS.rack with wellhead := true } }; let req : Req := reqS;
        let records : List Byte := [0x01, 0x07, 2, 1, 100, 0];
        let r := stageRecords s.cfg.params (fittedNow s) (filesNow s) true 128 61 records [] 0; Open req ⟨.service, true, true, false⟩ s
        ∧ 5 ≤ records.length ∧ records.length ≤ 244 ∧ s.rack.staging = false ∧ s.rack.staged = false ∧ s.cfg.order = none
        ∧ s.rack.commitReq = none ∧ r.2.2 = none ∧ canWrite s = true
        ∧ hasRoom s (itemBytes s { JItems.reset with pending := some (r.1, 0), order := some (0, 0) }) = true)
    ∧ (let s : State := { runS with rack := { runS.rack with wellhead := true, succ := [2, 3] } }; let req : Req := reqS;
        Open req ⟨.service, true, true, false⟩ s ∧ s.rack.succ ≠ [] ∧ s.rack.handAt = none)
    ∧ (let s : State := { runS with rack := { runS.rack with shelves := 4 } }; let req : Req := reqS; let dst : Byte := 4;
        let inner : BitVec 16 := 0x0101; let payload : List Byte := List.replicate 240 1; let tag := (0 : Byte);
        Open req ⟨.monitor, true, false, false⟩ s ∧ payload.length ≤ 240 ∧ dst.toNat ≠ position s ∧ 1 ≤ dst.toNat ∧ dst.toNat ≤ shelfCount s
        ∧ inner ≠ 0x070A ∧ innerTag s dst.toNat = some tag)
    ∧ (let s : State := commitS; let req : Req := reqS; let digest : BitVec 64 := BitVec.ofNat 64 (leNat (digestOf (overlay commitS.cfg.params commitS.rack.stage))); Open req ⟨.service, true, true, false⟩ s ∧ s.rack.staged = true ∧ bvBytes 8 digest = digestOf (overlay s.cfg.params s.rack.stage) ∧ s.cfg.hasPending = true) :=
  ⟨by decide +kernel,
   by decide +kernel,
   by decide +kernel,
   by decide +kernel,
   ⟨by decide +kernel, by decide +kernel, digest_bytes _, by decide +kernel⟩⟩

theorem test_wit_AuxiliaryReadsAnswer :
    (let s : State := restS; let req : Req := reqS; Serves req (.atLevel .monitor) s) :=
  by decide +kernel

theorem test_wit_ChannelCommandsAct :
    (let s : State := railIs 3 .latchedOff runS; let req : Req := reqS; Open req (.atLevel .operator) s ∧ s.aux.rails.length = 4
        ∧ s.aux.fuses.length = 6 ∧ (railOf s 3).st = .latchedOff ∧ s.sup.holdup = false)
    ∧ (let s : State := fuseIs 5 .tripped runS; let req : Req := reqS; let channel : Byte := 6; Open req (.atLevel .operator) s
        ∧ s.aux.rails.length = 4 ∧ s.aux.fuses.length = 6 ∧ 1 ≤ channel.toNat ∧ channel.toNat ≤ 6 ∧ (fuseOf s (channel.toNat - 1)).st = .tripped)
    ∧ (let s : State := runS; let req : Req := reqS; let channel : Byte := 6; Open req (.atLevel .operator) s ∧ s.aux.rails.length = 4
        ∧ s.aux.fuses.length = 6 ∧ (channel = 5 ∨ channel = 6))
    ∧ (let s : State := { runS with aux := { runS.aux with fuses := runS.aux.fuses.modify 0 fun r => { r with permit := true }, rails := runS.aux.rails.modify 3 fun r => { r with st := .regulating, pg := true } } }; let req : Req := reqS; let code : Byte := 0x21; Open req (.atLevel .operator) s ∧ s.aux.rails.length = 4 ∧ s.aux.fuses.length = 6 ∧ 0x21 ≤ code.toNat ∧ code.toNat ≤ 0x26 ∧ (fuseOf s (code.toNat - 0x21)).st = .off ∧ mayTurnOn s (code.toNat - 0x21) = true)
    ∧ (let s : State := fuseIs 1 .on runS; let req : Req := reqS; let code : Byte := 0x22; Open req (.atLevel .operator) s
        ∧ s.aux.rails.length = 4 ∧ s.aux.fuses.length = 6 ∧ 0x21 ≤ code.toNat ∧ code.toNat ≤ 0x26 ∧ (fuseOf s (code.toNat - 0x21)).st = .on
        ∧ (code.toNat < 0x25 ∨ (fuseOf s (code.toNat - 0x21)).permit = true) ∧ s.aux.shed = [])
    ∧ (let s : State := runS; let req : Req := reqS; let code : Byte := 0x25; let action : Byte := 0; Open req (.atLevel .operator) s
        ∧ s.aux.rails.length = 4 ∧ s.aux.fuses.length = 6 ∧ 0x25 ≤ code.toNat ∧ code.toNat ≤ 0x26 ∧ action.toNat ≤ 1
        ∧ (fuseOf s (code.toNat - 0x21)).permit = false ∧ s.aux.shed = [] ∧ s.aux.seqWait = false)
    ∧ (let s : State := runS; let req : Req := reqS; Open req (.atLevel .operator) s ∧ s.aux.rails.length = 4 ∧ s.aux.fuses.length = 6
        ∧ (railOf s 3).st = .off ∧ s.sup.holdup = false)
    ∧ (let s : State := { runS with sup := { runS.sup with holdup := true } }; let req : Req := reqS; Open req (.atLevel .operator) s
        ∧ s.aux.rails.length = 4 ∧ s.aux.fuses.length = 6 ∧ (railOf s 3).st = .off ∧ s.sup.holdup = true ∧ s.aux.seqWait = false)
    ∧ (let s : State := railIs 3 .regulating runS; let req : Req := reqS; Open req (.atLevel .operator) s ∧ s.aux.rails.length = 4
        ∧ s.aux.fuses.length = 6 ∧ (railOf s 3).st = .regulating ∧ s.aux.shed = []) :=
  ⟨by decide +kernel,
   by decide +kernel,
   by decide +kernel,
   by decide +kernel,
   by decide +kernel,
   by decide +kernel,
   by decide +kernel,
   by decide +kernel⟩

theorem test_wit_RecorderCommandsAnswer :
    (let s : State := recS; let req : Req := reqS; Open req (.atLevel .monitor) s) :=
  by decide +kernel

theorem test_wit_CompactionAndCaptureBegin :
    (let s : State := { runS with nv := { runS.nv with empty := false, jseq := 9 } }; let req : Req := reqS;
        Open req ⟨.service, false, false, true⟩ s ∧ s.nv.compact = none ∧ s.nv.empty = false)
    ∧ (let s : State := { runS with nv := { runS.nv with compact := some (1, 9) } }; let req : Req := reqS;
        Open req ⟨.service, false, false, true⟩ s ∧ s.nv.compact ≠ none)
    ∧ (let s : State := runS; let req : Req := reqS; Open req (.atLevel .operator) s ∧ s.clk.pstate = .run ∧ s.nv.capture = .idle)
    ∧ (let s : State := restS; let req : Req := reqS; Open req (.atLevel .operator) s ∧ (s.clk.pstate ≠ .run ∨ s.nv.capture ≠ .idle)) :=
  ⟨by decide +kernel,
   by decide +kernel,
   by decide +kernel⟩

theorem test_wit_ChallengeAndResponseRaiseTheSession :
    (let s : State := runS; let req : Req := reqS; let level : Byte := 3; Open req (.atLevel .monitor) s ∧ 2 ≤ level.toNat ∧ level.toNat ≤ 4
        ∧ level.toNat ≤ maxLevel s req.mb ∧ lockedOut s req.mb = false)
    ∧ (let s : State := nonceS; let req : Req := reqS; let level : Byte := 3; let a : Access := .service; let mac : List Byte := goodMac;
        Open req (.atLevel .monitor) s ∧ mac.length = 32 ∧ accessOf level.toNat = some a ∧ a ≠ .monitor ∧ level.toNat ≤ maxLevel s req.mb
        ∧ macValid s req.mb a mac = true)
    ∧ (let s : State := runS; let req : Req := reqS; let level : Byte := 4; let a : Access := .maker; let mac : List Byte := List.replicate 32 0;
        Open req (.atLevel .monitor) s ∧ mac.length = 32 ∧ accessOf level.toNat = some a ∧ a ≠ .monitor
        ∧ (maxLevel s req.mb < level.toNat ∨ macValid s req.mb a mac = false))
    ∧ (let s : State := runS; let req : Req := reqS; let level : Byte := 5; let mac : List Byte := List.replicate 32 0;
        Open req (.atLevel .monitor) s ∧ mac.length = 32 ∧ (level.toNat < 2 ∨ 4 < level.toNat)) :=
  ⟨by decide +kernel,
   ⟨by decide +kernel, goodMac_length, by decide +kernel, by decide +kernel, by decide +kernel, goodMac_valid⟩,
   by decide +kernel⟩

theorem test_wit_IdentityIsSigned :
    (let s : State := restS; let req : Req := reqS; let challenge : List Byte := List.replicate 32 1; Open req (.atLevel .monitor) s
        ∧ challenge.length = 32)
    ∧ (let s : State := restS; let req : Req := reqS; let challenge : List Byte := List.replicate 31 1; Open req (.atLevel .monitor) s
        ∧ challenge.length ≠ 32) :=
  by decide +kernel

theorem test_wit_LockoutsAndNoncesEnd :
    (let s : State := { runS with host := { runS.host with mail := List.replicate 4 { MailS.reset with lockUntil := some 6000000000 } } };
        let mb : Mailbox := .twb; let at_ : Nat := 6000000000; s.host.mail.length = 4 ∧ (mail s mb).lockUntil = some at_ ∧ (mail s mb).nonce = none)
    ∧ (let s : State := { runS with host := { runS.host with mail := List.replicate 4 { MailS.reset with nonce := some ([1], 5000000000) } } };
        let mb : Mailbox := .twb; let nonce : List Byte := [1]; let at_ : Nat := 5000000000; s.host.mail.length = 4
        ∧ (mail s mb).lockUntil = none ∧ (mail s mb).nonce = some (nonce, at_)) :=
  by decide +kernel

theorem test_wit_KeysAndLifeCycle :
    (let s : State := keyS; let req : Req := reqS; let slot : Byte := 2; let blob : List Byte := goodBlob; let k : List Byte := goodKey;
        Open req ⟨.service, false, false, true⟩ s ∧ blob.length = 48 ∧ 1 ≤ slot.toNat ∧ slot.toNat ≤ 4
        ∧ (s.key.life = .provisioned ∨ s.key.life = .fielded) ∧ unwrap s req.mb slot blob = some k)
    ∧ (let s : State := runS; let req : Req := reqS; let slot : Byte := 4; let blob : List Byte := List.replicate 48 0;
        Open req ⟨.service, false, false, true⟩ s ∧ blob.length = 48 ∧ 1 ≤ slot.toNat ∧ slot.toNat ≤ 4
        ∧ (s.key.life = .provisioned ∨ s.key.life = .fielded) ∧ unwrap s req.mb slot blob = none)
    ∧ (let s : State := runS; let req : Req := reqS; let slot : Byte := 5; let blob : List Byte := List.replicate 48 0;
        Open req ⟨.service, false, false, true⟩ s ∧ blob.length = 48 ∧ (slot = 0 ∨ 4 < slot.toNat)
        ∧ (s.key.life = .provisioned ∨ s.key.life = .fielded))
    ∧ (let s : State := runS; let req : Req := reqS; let target : Byte := 4; let goal : LifeCycle := .returned;
        let auth : List Byte := List.replicate 96 0; Open req ⟨.service, false, false, true⟩ s ∧ auth.length = 96 ∧ lifeOf target.toNat = some goal)
    ∧ (let s : State := runS; let req : Req := reqS; let target : Byte := 9; let auth : List Byte := List.replicate 96 0;
        Open req ⟨.service, false, false, true⟩ s ∧ auth.length = 96 ∧ lifeOf target.toNat = none) :=
  ⟨⟨by decide +kernel, goodBlob_length, by decide +kernel, by decide +kernel, by decide +kernel, goodBlob_unwraps⟩,
   by decide +kernel,
   by decide +kernel,
   by decide +kernel⟩

theorem test_wit_ImageWriteStoresExactlyItsData :
    (let s : State := runS; let req : Req := reqS; let offset : BitVec 32 := 524280; let data : List Byte := List.replicate 8 1;
        Open req (.atLevel .service) s ∧ 8 ≤ data.length ∧ data.length ≤ 232 ∧ data.length % 8 = 0 ∧ offset.toNat % 8 = 0
        ∧ offset.toNat + data.length ≤ 0x80000 ∧ s.ring.relaying = false ∧ activationRuns s = false ∧ stagePends s = false ∧ nvRefusal s = none
        ∧ Memory.wf (patchSlot s (inactiveSlot s)) = true) :=
  by decide +kernel

theorem test_wit_UpdateCommandsAct :
    (let s : State := runS; let req : Req := reqS; Serves req (.atLevel .monitor) s ∧ Open req (.atLevel .service) s ∧ s.upd.img = .empty
        ∧ Open req ⟨.service, true, false, false⟩ s ∧ s.upd.img ≠ .verified)
    ∧ (let s : State := { runS with upd := { runS.upd with img := .partly } }; let req : Req := reqS; Open req (.atLevel .service) s
        ∧ s.upd.img ≠ .empty)
    ∧ (let s : State := { runS with upd := { runS.upd with img := .verified, imgDigest := 77 }, ring := { runS.ring with relaying := true } };
        let req : Req := reqS; Open req ⟨.service, true, false, false⟩ s ∧ s.upd.img = .verified
        ∧ (s.ring.relaying = true ∨ activationRuns s = true ∨ stagePends s = true))
    ∧ (let s : State := { runS with upd := { runS.upd with img := .verified, imgDigest := 77 } }; let req : Req := reqS;
        Open req ⟨.service, true, false, false⟩ s ∧ s.upd.img = .verified ∧ s.ring.relaying = false ∧ activationRuns s = false
        ∧ stagePends s = false)
    ∧ (let s : State := { runS with upd := { runS.upd with img := .verified, imgDigest := 77 } }; let req : Req := reqS;
        let expect : BitVec 32 := 77; Open req (.atLevel .service) s ∧ s.upd.img = .verified ∧ s.upd.imgDigest = expect ∧ s.ring.relaying = false
        ∧ stagePends s = false ∧ activationRuns s = false)
    ∧ (let s : State := { runS with upd := { runS.upd with img := .verified, imgDigest := 77 }, ring := { runS.ring with relaying := true } };
        let req : Req := reqS; Open req (.atLevel .service) s ∧ (s.ring.relaying = true ∨ stagePends s = true ∨ activationRuns s = true))
    ∧ (let s : State := { runS with upd := { runS.upd with img := .verified, imgDigest := 77 } }; let req : Req := reqS;
        let expect : BitVec 32 := 78; Open req (.atLevel .service) s ∧ s.ring.relaying = false ∧ stagePends s = false ∧ activationRuns s = false
        ∧ (s.upd.img ≠ .verified ∨ s.upd.imgDigest ≠ expect)) :=
  ⟨by decide +kernel,
   by decide +kernel,
   by decide +kernel,
   by decide +kernel,
   by decide +kernel,
   by decide +kernel⟩

theorem test_wit_CounterCommandsAnswer :
    (let s : State := runS; let req : Req := reqS; let first : Byte := 68; let num : Byte := 28; let source : Byte := 0;
        let order : BitVec 32 := 0; let c : Cut := ((cutOf reqS 0 0 runS).getD (cutNow 0 0 0 false runS)); Open req (counterRules s) s
        ∧ 1 ≤ num.toNat ∧ num.toNat ≤ 28 ∧ first.toNat + num.toNat ≤ 96 ∧ source.toNat ≤ 2 ∧ cutOf req source order s = some c)
    ∧ (let s : State := runS; let req : Req := reqS; let first : Byte := 68; let num : Byte := 28; let source : Byte := 2;
        let order : BitVec 32 := 5; Open req (counterRules s) s ∧ 1 ≤ num.toNat ∧ num.toNat ≤ 28 ∧ first.toNat + num.toNat ≤ 96
        ∧ source.toNat ≤ 2 ∧ cutOf req source order s = none)
    ∧ (let s : State := runS; let req : Req := reqS; let hist : Byte := 7; let half : Byte := 1; let source : Byte := 0;
        let order : BitVec 32 := 0; let c : Cut := ((cutOf reqS 0 0 runS).getD (cutNow 0 0 0 false runS)); Open req (counterRules s) s
        ∧ hist.toNat ≤ 7 ∧ half.toNat ≤ 1 ∧ source.toNat ≤ 2 ∧ cutOf req source order s = some c)
    ∧ (let s : State := traceMark 1 2 3 4 runS; let req : Req := reqS; let offset : BitVec 32 := 15; Open req (.atLevel .service) s
        ∧ offset.toNat < 16 * s.cnt.trace.length)
    ∧ (let s : State := traceMark 1 2 3 4 runS; let req : Req := reqS; let offset : BitVec 32 := 16; Open req (.atLevel .service) s
        ∧ 16 * s.cnt.trace.length ≤ offset.toNat)
    ∧ (let s : State := { runS with rack := { runS.rack with wellhead := true } }; let req : Req := reqS; let tLatch : BitVec 64 := 14000000000;
        let tl := if tLatch = 0 then s.clk.ring + ms 2 else tLatch.toNat; Open req ⟨.service, true, true, false⟩ s ∧ s.cnt.orders = []
        ∧ s.clk.ring + ms 1 ≤ tl ∧ tl ≤ s.clk.ring + sec 10)
    ∧ (let s : State := { runS with rack := { runS.rack with wellhead := true } }; let req : Req := reqS; let tLatch : BitVec 64 := 0;
        let tl := if tLatch = 0 then s.clk.ring + ms 2 else tLatch.toNat; Open req ⟨.service, true, true, false⟩ s ∧ s.cnt.orders = []
        ∧ s.clk.ring + ms 1 ≤ tl ∧ tl ≤ s.clk.ring + sec 10) :=
  ⟨by decide +kernel,
   by decide +kernel,
   by decide +kernel,
   by decide +kernel,
   by decide +kernel,
   by decide +kernel⟩

theorem test_wit_ResetsKeepAndLoseWhatTable3_9Says :
    (let s : State := runS; let lowNs : Nat := 99; (lowNs < 100 ∨ (s.clk.pstate ≠ .run ∧ s.clk.pstate ≠ .watch)))
    ∧ (let s : State := restS; (s.clk.pstate = .run ∨ s.clk.pstate = .watch) ∧ s.dbg.haltedCp = false ∧ s.clk.inReset = none)
    ∧ (let s : State := { restS with clk := { restS.clk with rstOwnHold := true } }; let lowNs : Nat := 200;
        (s.clk.pstate = .run ∨ s.clk.pstate = .watch) ∧ 100 ≤ lowNs ∧ s.clk.rstOwnHold = true)
    ∧ (let s : State := { restS with clk := { restS.clk with rstOwnUntil := some 5000020000 } }; let lowNs : Nat := 200;
        let own : Nat := 5000020000; (s.clk.pstate = .run ∨ s.clk.pstate = .watch) ∧ 100 ≤ lowNs ∧ s.clk.rstOwnHold = false
        ∧ s.clk.rstOwnUntil = some own ∧ s.clk.now < own)
    ∧ (let s : State := restS; let lowNs : Nat := 999; (s.clk.pstate = .run ∨ s.clk.pstate = .watch) ∧ 100 ≤ lowNs ∧ lowNs < 1000
        ∧ s.clk.rstOwnHold = false ∧ (∀ own, s.clk.rstOwnUntil = some own → own ≤ s.clk.now))
    ∧ (let s : State := restS; let lowNs : Nat := 1000; (s.clk.pstate = .run ∨ s.clk.pstate = .watch) ∧ 1000 ≤ lowNs ∧ s.clk.rstOwnHold = false
        ∧ (∀ own, s.clk.rstOwnUntil = some own → own ≤ s.clk.now))
    ∧ (let s : State := runS; s.clk.pstate = .run ∧ s.dbg.haltedLp = false ∧ s.clk.inReset = none) :=
  ⟨by decide +kernel,
   by decide +kernel,
   by decide +kernel,
   by decide +kernel,
   ⟨by decide +kernel, by decide +kernel, by decide +kernel, by decide +kernel, by intro own h; cases h⟩,
   ⟨by decide +kernel, by decide +kernel, by decide +kernel, by intro own h; cases h⟩,
   by decide +kernel⟩

theorem test_wit_ResetsEnd :
    (let s : State := { runS with clk := { runS.clk with rstExt := true } }; s.clk.rstExt = true ∧ (s.clk.rstExt = true ∨ s.clk.rstOwnHold = true))
    ∧ (let s : State := { runS with clk := { runS.clk with inReset := some .controller } }; let k := (.controller : ResetKind);
        s.clk.inReset = some k ∧ s.clk.rstExt = false ∧ s.clk.rstOwnHold = false)
    ∧ (let s : State := { runS with clk := { runS.clk with notReady := true, inReset := some .powerOn } }; s.clk.notReady = true
        ∧ readyNow s = true ∧ (s.clk.inReset = none ∨ s.clk.inReset = some .powerOn))
    ∧ (let s : State := { runS with clk := { runS.clk with authDone := false } }; readyNow s = false) :=
  ⟨by decide +kernel,
   by decide +kernel,
   by decide +kernel⟩

theorem test_wit_SupplyEventsAct :
    (let s : State := runS; let input : Carry := .aux; s.sup.carry ≠ input ∧ s.clk.pstate ≠ .off ∧ s.cnt.counters.length = 96)
    ∧ (let vmain : Nat := 65000; let vaux : Nat := 0; max vmain vaux ≤ 65000)
    ∧ (let vmain : Nat := 0; let vaux : Nat := 65001; 65000 < max vmain vaux)
    ∧ (let s : State := runS; s.sup.holdup = false ∧ s.clk.pstate ≠ .off) :=
  ⟨by decide +kernel,
   by decide +kernel,
   by decide +kernel⟩

theorem test_wit_HoldUpParksShedsAndReturns :
    (let s : State := admS; s.sup.holdup = false ∧ s.clk.pstate ≠ .off ∧ s.lad.levels.length = 16 ∧ s.aux.rails.length = 4 ∧ s.aux.fuses.length = 6)
    ∧ (let s : State := { runS with sup := { runS.sup with holdup := true } }; s.sup.holdup = true ∧ s.clk.pstate ≠ .off)
    ∧ (let s : State := { runS with sup := { runS.sup with holdup := true, latchDue := true }, lad := { runS.lad with levels := List.replicate 16 bypL } }; s.sup.holdup = true ∧ s.sup.latchDue = true ∧ ((presentLevels s).all fun k => (lvl s k).sensedOut || (lvl s k).isStuckIn) = true) :=
  ⟨by decide +kernel,
   by decide +kernel⟩

theorem test_wit_WakesLeadToWatchAndToRun :
    (let s : State := stillS; let currentMa : Int := (-100000); s.clk.pstate = .still ∧ s.clk.dwellUntil ≤ s.clk.now
        ∧ (wakeMa s : Int) < currentMa.natAbs)
    ∧ (let s : State := stillS; let currentMa : Int := 0; s.clk.pstate = .still ∧ s.clk.dwellUntil ≤ s.clk.now ∧ currentMa.natAbs ≤ wakeMa s)
    ∧ (let s : State := stillS; s.clk.pstate = .still ∧ s.clk.dwellUntil ≤ s.clk.now ∧ s.clk.toneDeaf ≤ s.clk.now)
    ∧ (let s : State := { stillS with clk := { stillS.clk with toneDeaf := 5000000001 } }; s.clk.pstate = .still ∧ s.clk.dwellUntil ≤ s.clk.now
        ∧ s.clk.now < s.clk.toneDeaf)
    ∧ (let s : State := stillS; let outside : BitVec 16 := 0x80; s.clk.pstate = .still ∧ s.clk.dwellUntil ≤ s.clk.now ∧ (∃ k, k < 16
        ∧ present s k = true ∧ outside.getLsbD k = true))
    ∧ (let s : State := stillS; let outside : BitVec 16 := 0xFF00; s.clk.pstate = .still ∧ s.clk.dwellUntil ≤ s.clk.now
        ∧ (∀ k, k < 16 → present s k = true → outside.getLsbD k = false))
    ∧ (let s : State := { stillS with clk := { stillS.clk with dwellUntil := 5000000001 } }; s.clk.pstate = .still ∧ s.clk.now < s.clk.dwellUntil)
    ∧ (let s : State := { stillS with clk := { stillS.clk with wakeLatch := true } }; s.clk.pstate = .still ∧ s.clk.wakeLatch = true)
    ∧ (let s : State := { stillS with clk := { stillS.clk with wakeTimerAt := some 6000000000 } }; let at_ : Nat := 6000000000;
        s.clk.pstate = .still ∧ s.clk.wakeTimerAt = some at_)
    ∧ (let s : State := { restS with ring := { restS.ring with lkb := { restS.ring.lkb with state := .up } } }; s.clk.pstate = .watch
        ∧ s.clk.wakeKind ≠ .localWake ∧ (s.ring.lka.state = .up ∨ s.ring.lkb.state = .up) ∧ (configured s = true ∨ s.clk.timeState = .synced)
        ∧ s.clk.inReset = none)
    ∧ (let s : State := { restS with clk := { restS.clk with wakeKind := .localWake } }; s.clk.pstate = .watch ∧ s.clk.wakeKind = .localWake
        ∧ s.clk.wakeLatch = false) :=
  ⟨by decide +kernel,
   by decide +kernel,
   by decide +kernel,
   by decide +kernel,
   ⟨by decide +kernel, by decide +kernel, 7, by decide +kernel⟩,
   by decide +kernel,
   by decide +kernel⟩

theorem test_wit_SleepNeedsEveryVote :
    (let s : State := { admS with rack := { admS.rack with sleepAt := some 4000500000 } }; let tc : Nat := 4000500000; s.clk.pstate = .run
        ∧ s.rack.sleepAt = some tc ∧ s.lad.levels.length = 16 ∧ s.rack.sleepAt ≠ none)
    ∧ (let s : State := { runS with rack := { runS.rack with wellhead := true, voting := true } }; s.rack.sleepAt = none ∧ s.clk.pstate = .run
        ∧ s.rack.wellhead = true ∧ s.rack.voting = true)
    ∧ (let s : State := { runS with rack := { runS.rack with votedYes := some 3 } }; let v := (3 : BitVec 32); s.clk.pstate = .run
        ∧ s.rack.sleepAt = none ∧ s.rack.wellhead = false ∧ s.rack.votedYes = some v)
    ∧ (let s : State := runS; s.clk.pstate = .run ∧ s.rack.sleepAt = none ∧ (s.rack.wellhead = false ∨ s.rack.voting = false)
        ∧ s.rack.votedYes = none) :=
  ⟨by decide +kernel,
   by decide +kernel,
   by decide +kernel⟩

theorem test_wit_ClocksFollowTheirSources :
    (let s : State := { runS with cfg := { runS.cfg with effective := ⟨0x0112, [1]⟩ :: runS.cfg.effective } }; s.par 0x0112 = 1
        ∧ s.clk.shoreLost = false ∧ s.clk.pstate ≠ .off ∧ (s.clk.pstate = .run ∨ s.clk.pstate = .watch))
    ∧ (let s : State := { runS with clk := { runS.clk with shoreXtal := true } }; s.clk.shoreXtal = true)
    ∧ (let s : State := runS; s.clk.pstate = .run ∧ s.clk.pll = true ∧ s.rack.wellhead = false ∧ s.clk.timeState = .synced
        ∧ s.clk.ringKnown = true ∧ s.clk.timeState ≠ .lost)
    ∧ (let s : State := { runS with clk := { runS.clk with timeState := .holdover } }; s.clk.timeState = .holdover)
    ∧ (let s : State := restS; (s.clk.pstate ≠ .run ∨ s.clk.timeState = .lost))
    ∧ (let s : State := { runS with rack := { runS.rack with wellhead := true }, clk := { runS.clk with firstSyncDue := true, shoreReports := [(2, 4000000500)] } }; onRing s = true ∧ s.rack.wellhead = true ∧ s.clk.firstSyncDue = true ∧ (∀ h ∈ serviceShelves s, h = position s ∨ ∃ r ∈ s.clk.shoreReports, r.1 = h)) :=
  ⟨by decide +kernel,
   by decide +kernel,
   by decide +kernel,
   by decide +kernel,
   by decide +kernel⟩

theorem test_wit_PeriodsAndFramesAdvance :
    (let s : State := admS; s.clk.pstate = .run ∧ ¬(s.mod.nextCmd.isSome = true ∧ s.mod.nextFor = s.mod.period + 1))
    ∧ (let s : State := { admS with mod := { admS.mod with hold := true } }; s.clk.pstate = .run ∧ s.mod.hold = true ∧ s.mod.holdExp = false)
    ∧ (let s : State := { admS with mod := { admS.mod with hold := true, holdExp := true }, lad := { admS.lad with idleSince := some 4999500000 } }; let at_ : Nat := 4999500000; s.clk.pstate = .run ∧ s.lad.idleSince = some at_ ∧ s.mod.holdExp = true) :=
  ⟨by decide +kernel,
   by decide +kernel⟩

theorem test_wit_TheSetIsFilledUpToTheVoltage :
    (let v : Rat := 5; let base : Rat := 0; base ≤ v) :=
  by decide +kernel

theorem test_wit_ACommandSetsTheNextPeriod :
    (let s : State := admS; let port : Port := .lka; let f : Frame := cmdFrame (landed s 1) 1; let e := BitVec.ofNat 32 (fieldAt f.body 0 4);
        Applies port f s ∧ f.ftype = 1 ∧ s.rack.wellhead = false ∧ (s.rack.everObeyed = false ∨ newer s.rack.obeyed e = false))
    ∧ (let s : State := { admS with rack := { admS.rack with everObeyed := true, obeyed := 2 } }; let port : Port := .lka;
        let f : Frame := cmdFrame (landed s 1) 1; let e := BitVec.ofNat 32 (fieldAt f.body 0 4); Applies port f s ∧ f.ftype = 1
        ∧ s.rack.wellhead = false ∧ s.rack.everObeyed = true ∧ newer s.rack.obeyed e = true) :=
  ⟨⟨applies_seal _ _ _ 1 2 _ rfl (by decide +kernel), by decide +kernel⟩,
   ⟨applies_seal _ _ _ 1 2 _ rfl (by decide +kernel), by decide +kernel⟩⟩

theorem test_wit_TheGuardParksAndReleases :
    (let s : State := admS; let k : Lvl := 7; s.clk.pstate ≠ .off ∧ s.lad.levels.length = 16 ∧ present s k.val = true
        ∧ (lvl s k.val).st ≠ .retired ∧ (lvl s k.val).st ≠ .parked ∧ ((lvl s k.val).st ≠ .retired ∨ s.lad.checkLeft.any (·.val == k.val) = true))
    ∧ (let s : State := admS; let k : Lvl := 8; s.clk.pstate ≠ .off ∧ s.lad.levels.length = 16
        ∧ (present s k.val = false ∨ (lvl s k.val).st = .retired ∨ (lvl s k.val).st = .parked))
    ∧ (let s : State := admS; let r : ParkAll := .overCurrent; s.clk.pstate ≠ .off ∧ s.lad.levels.length = 16 ∧ noParkAll s r = false)
    ∧ (let s : State := admS; let r : ParkAll := .bsUnderVoltage 8; s.clk.pstate ≠ .off ∧ s.lad.levels.length = 16 ∧ noParkAll s r = true)
    ∧ (let s : State := { admS with lad := { admS.lad with levels := admS.lad.levels.set 7 { Level.reset with st := .parked, cause := cellLimitCause .overVoltage, bypGate := true, clearedAt := some 4500000000 } } }; let k : Lvl := 7; let at_ : Nat := 4500000000; s.clk.pstate ≠ .off ∧ s.lad.levels.length = 16 ∧ scheduling s = true ∧ (lvl s k.val).clearedAt = some at_ ∧ (lvl s k.val).st = .parked ∧ guardCause (lvl s k.val).cause = true ∧ s.lad.severeHold = false ∧ (lvl s k.val).tapPark = false) :=
  ⟨by decide +kernel,
   by decide +kernel,
   by decide +kernel,
   by decide +kernel⟩

theorem test_wit_FreezesAndStepwiseParks :
    (let s : State := { admS with clk := { admS.clk with inReset := some .controller } }; s.lad.levels.length = 16
        ∧ (s.clk.inReset ≠ none ∨ s.dbg.forced = true) ∧ s.lad.freezeAt = none)
    ∧ (let s : State := { admS with lad := { admS.lad with freezeAt := some 4990000000 } }; let at_ : Nat := 4990000000; s.lad.levels.length = 16
        ∧ s.lad.freezeAt ≠ none ∧ s.lad.freezeAt = some at_ ∧ s.lad.parkRun = .none)
    ∧ (let s : State := { admS with lad := { admS.lad with parkRun := .freezeExpiry } }; let k : Nat := 3; s.lad.levels.length = 16
        ∧ s.lad.parkRun ≠ .none ∧ topToPark s = some k)
    ∧ (let s : State := { admS with cfg := { admS.cfg with effective := ⟨0x030B, [1]⟩ :: admS.cfg.effective }, lad := { admS.lad with levels := admS.lad.levels.set 1 { insL with st := .retired, stuckIn := true } } }; s.lad.levels.length = 16 ∧ s.par 0x030B = 1 ∧ s.lad.disc = .none ∧ isAdmitted s = true ∧ stuckLimit s = some 0)
    ∧ (let s : State := { admS with lad := { admS.lad with disc := .waiting } }; let mv : Int := 499; s.lad.levels.length = 16
        ∧ s.lad.disc = .waiting ∧ mv < 500)
    ∧ (let s : State := { admS with lad := { admS.lad with disc := .waiting } }; let mv : Int := 500; s.lad.levels.length = 16
        ∧ (s.lad.disc ≠ .waiting ∨ 500 ≤ mv)) :=
  ⟨by decide +kernel,
   by decide +kernel,
   by decide +kernel,
   by decide +kernel,
   by decide +kernel⟩

theorem test_wit_AStartIsCheckedRampedOrAborted :
    (let s : State := { runS with lad := { runS.lad with adm := .checking, sby := true, checkLeft := [0, 1] } }; let k : Lvl := 1;
        s.lad.levels.length = 16 ∧ s.lad.checkLeft.any (·.val == k.val) = true ∧ checkRuns s = true ∧ (s.lad.sby = true ∨ absRat (stringA s) < 2))
    ∧ (let s : State := { runS with mod := { runS.mod with eAdmit := true }, lad := { runS.lad with sby := true, levels := List.replicate 16 bypL, needCheck := true } }; s.lad.levels.length = 16 ∧ s.clk.pstate = .run ∧ mayStart s = true)
    ∧ (let s : State := { runS with lad := { runS.lad with adm := .opening, sby := true, levels := List.replicate 16 bypL } };
        s.lad.levels.length = 16 ∧ s.clk.pstate = .run ∧ s.lad.adm = .opening ∧ outOrRetired s = true ∧ s.lad.oos = false ∧ s.lad.freezeAt = none
        ∧ s.sup.holdup = false)
    ∧ (let s : State := { runS with lad := { runS.lad with adm := .opening, sby := true, levels := List.replicate 16 bypL, oos := true } };
        s.lad.levels.length = 16 ∧ s.clk.pstate = .run ∧ s.lad.adm = .opening
        ∧ (outOrRetired s = false ∨ s.lad.oos = true ∨ s.lad.freezeAt ≠ none ∨ s.sup.holdup = true))
    ∧ (let s : State := runS; s.lad.levels.length = 16 ∧ s.clk.pstate = .run ∧ s.lad.adm ≠ .opening ∧ mayStart s = false)
    ∧ (let s : State := { admS with lad := { admS.lad with adm := .ramp } }; s.lad.levels.length = 16 ∧ s.clk.pstate = .run ∧ s.lad.adm = .ramp
        ∧ s.lad.freezeAt = none)
    ∧ (let s : State := { admS with lad := { admS.lad with adm := .ramp, rampV := 10 } }; let ma : Int := 500000; let mv : Int := -1;
        s.lad.levels.length = 16 ∧ s.lad.adm = .ramp ∧ s.lad.abortRef + (s.parN 0x030A : Rat) < absRat ((ma : Rat) / 1000)
        ∧ (mv : Rat) / 1000 < rampNow s / 2)
    ∧ (let s : State := { admS with lad := { admS.lad with adm := .ramp, rampV := 10 } }; let ma : Int := 500000; let mv : Int := 5000;
        s.lad.levels.length = 16 ∧ (s.lad.adm ≠ .ramp ∨ absRat ((ma : Rat) / 1000) ≤ s.lad.abortRef + (s.parN 0x030A : Rat) ∨ rampNow s / 2 ≤ (mv : Rat) / 1000)) :=
  ⟨by decide +kernel,
   by decide +kernel,
   by decide +kernel,
   by decide +kernel,
   by decide +kernel,
   by decide +kernel,
   by decide +kernel⟩

theorem test_wit_SamplesFormTheirWords :
    (let s : State := restS; (s.clk.pstate = .run ∨ s.clk.pstate = .watch) ∧ s.flt.injections = [] ∧ streamsHeld s = false)
    ∧ (let s : State := { restS with clk := { restS.clk with inReset := some .brownOut } }; (s.clk.pstate = .run ∨ s.clk.pstate = .watch)
        ∧ s.flt.injections = [] ∧ streamsHeld s = true) :=
  by decide +kernel

theorem test_wit_ScansMeansAndCorrections :
    (let s : State := { admS with meas := { admS.meas with suspects := [3], owtTap := some 3, tapRun := some 50 } }; let tap : Fin 17 := 3;
        firmwareRuns s = true ∧ s.flt.injections = [] ∧ s.meas.ntc.length = 24 ∧ s.meas.suspects.contains tap.val = true
        ∧ testsRun s tap.val = true)
    ∧ (let s : State := admS; let tap : Fin 17 := 3; firmwareRuns s = true ∧ s.flt.injections = [] ∧ s.meas.ntc.length = 24
        ∧ (s.meas.suspects.contains tap.val = false ∨ testsRun s tap.val = false))
    ∧ (let s : State := admS; let mask : BitVec 16 := 0; let k : Nat := 0; firmwareRuns s = true ∧ s.flt.injections = [] ∧ s.meas.ntc.length = 24
        ∧ k < s.meas.dropInsert.length ∧ k < s.meas.dropBypass.length
        ∧ ((List.range 16).map fun i => (s.meas.dropSlot + i) % 16).find? (fun k => present s k && !mask.getLsbD k) = some k)
    ∧ (let s : State := admS; firmwareRuns s = true ∧ s.flt.injections = [] ∧ s.meas.ntc.length = 24 ∧ s.clk.pstate = .run) :=
  ⟨by decide +kernel,
   by decide +kernel,
   by decide +kernel⟩

theorem test_wit_ChargeIsCountedPerInterval :
    (let s : State := { admS with chg := { admS.chg with lastI := some 100 } }; let a : Rat := 100; counting s = true ∧ s.clk.coarseOn = false
        ∧ s.chg.lastI = some a ∧ s.chg.heldTins = [] ∧ s.meas.held = false ∧ s.chg.cells.length = 16)
    ∧ (let s : State := { admS with lad := { admS.lad with sby := true } }; counting s = false)
    ∧ (let s : State := admS; firmwareRuns s = true ∧ s.clk.pstate = .run ∧ inWarmReset s = false ∧ canWrite s = true
        ∧ hasRoom s (itemBytes s (counterGroup false s)) = true)
    ∧ (let s : State := { admS with sup := { admS.sup with holdup := true } }; s.clk.pstate = .run ∧ inWarmReset s = false ∧ canWrite s = false) :=
  ⟨by decide +kernel,
   by decide +kernel,
   by decide +kernel⟩

theorem test_wit_AnchorsCompleteOrEnd :
    (let s : State := { admS with chg := { admS.chg with cells := admS.chg.cells.modify 7 fun a => { a with running := .full, holdSince := some 4000000000 } }, mod := { admS.mod with charge := true } }; let k : Lvl := 7; let h : Nat := 4000000000; s.chg.cells.length = 16 ∧ s.clk.pstate = .run ∧ inWarmReset s = false ∧ (acc s k.val).running ≠ .none ∧ (acc s k.val).holdSince = some h ∧ reversed s (acc s k.val) = false)
    ∧ (let s : State := { admS with chg := { admS.chg with cells := admS.chg.cells.modify 7 fun a => { a with running := .full, holdSince := some 4000000000 } }, mod := { admS.mod with charge := false } }; let k : Lvl := 7; let h : Nat := 4000000000; s.chg.cells.length = 16 ∧ s.clk.pstate = .run ∧ inWarmReset s = false ∧ (acc s k.val).running ≠ .none ∧ (acc s k.val).holdSince = some h ∧ reversed s (acc s k.val) = true)
    ∧ (let s : State := { admS with chg := { admS.chg with cells := admS.chg.cells.modify 7 fun a => { a with running := .empty } }, mod := { admS.mod with charge := true } }; let k : Lvl := 7; s.chg.cells.length = 16 ∧ (acc s k.val).running ≠ .none ∧ reversed s (acc s k.val) = true)
    ∧ (let s : State := { admS with chg := { admS.chg with cells := admS.chg.cells.modify 7 fun a => { a with running := .full, lowSince := some 4999999999 } }, mod := { admS.mod with charge := true } }; let k : Lvl := 7; let h : Nat := 4999999999; s.chg.cells.length = 16 ∧ (acc s k.val).running ≠ .none ∧ reversed s (acc s k.val) = false ∧ (acc s k.val).lowSince = some h)
    ∧ (let s : State := admS; let k : Lvl := 15; s.chg.cells.length = 16 ∧ (acc s k.val).running = .none) :=
  ⟨by decide +kernel,
   by decide +kernel,
   by decide +kernel,
   by decide +kernel⟩

theorem test_wit_TheTokenIsReadAndAuthenticated :
    (let s : State := runS; firmwareRuns s = true ∧ s.host.gates.getD 1 0 = 0 ∧ s.busA.sclStuck = false ∧ s.chg.attempt = false
        ∧ s.chg.removed = false)
    ∧ (let s : State := packS; let id : BitVec 64 := 10; let resp : List Byte := goodResp; firmwareRuns s = true ∧ s.host.gates.getD 1 0 = 0
        ∧ s.busA.sclStuck = false ∧ s.chg.attempt = true ∧ expectedResponse s id = some (fitBytes 16 resp))
    ∧ (let s : State := { runS with chg := { runS.chg with attempt := true } }; let id : BitVec 64 := 10; let resp : List Byte := [];
        firmwareRuns s = true ∧ s.host.gates.getD 1 0 = 0 ∧ s.busA.sclStuck = false ∧ s.chg.attempt = true
        ∧ expectedResponse s id ≠ some (fitBytes 16 resp)) :=
  ⟨by decide +kernel,
   ⟨by decide +kernel, by decide +kernel, by decide +kernel, by decide +kernel, goodResp_expected⟩,
   by decide +kernel⟩

theorem test_wit_BusATransactionsEnd :
    (let s : State := { runS with busA := { runS.busA with losses := 2 } }; busARuns s = true ∧ s.chg.attempt = false ∧ s.busA.losses < 3)
    ∧ (let s : State := { runS with busA := { runS.busA with losses := 3 } }; busARuns s = true ∧ 3 ≤ s.busA.losses ∧ s.chg.attempt = false)
    ∧ (let s : State := { runS with cfg := { runS.cfg with effective := ⟨0x0123, [1]⟩ :: runS.cfg.effective } }; busARuns s = true
        ∧ s.par 0x0123 = 1 ∧ s.chg.attempt = false)
    ∧ (let s : State := { runS with cfg := { runS.cfg with effective := ⟨0x0123, [0]⟩ :: runS.cfg.effective } }; busARuns s = true
        ∧ s.par 0x0123 ≠ 1)
    ∧ (let s : State := { runS with chg := { runS.chg with attempt := true }, busA := { runS.busA with polls := 14 } }; let b : Byte := 0;
        busARuns s = true ∧ s.chg.attempt = true ∧ b ≠ 0x02 ∧ (b = 0x03 ∨ 14 ≤ s.busA.polls)) :=
  ⟨by decide +kernel,
   by decide +kernel,
   by decide +kernel,
   by decide +kernel⟩

theorem test_wit_TheEngineStepsAndCompletes :
    (let s : State := engS; let tile := fun (u : State) (i : Nat) => u.eng.tiles.getD i Tile.reset; let i : Fin 16 := 2; s.eng.tiles.length = 16
        ∧ s.flt.sources.length = 32 ∧ s.clk.pstate = .run ∧ (s.clk.pstate ≠ .run ∨ (tile s i.val).stepping = false))
    ∧ (let s : State := { engS with eng := { engS.eng with overrunRun := 1, tiles := engS.eng.tiles.modify 2 fun r => { r with stepping := true } } }; let tile := fun (u : State) (i : Nat) => u.eng.tiles.getD i Tile.reset; let i : Fin 16 := 2; s.eng.tiles.length = 16 ∧ s.flt.sources.length = 32 ∧ s.clk.pstate = .run ∧ (tile s i.val).stepping = true ∧ ((tile s i.val).warmup = true ∨ (tile s i.val).overSince = none) ∧ s.eng.tiles.any (·.stepping) = true ∧ s.eng.overrunRun < 2)
    ∧ (let s : State := { engS with eng := { engS.eng with tiles := engS.eng.tiles.modify 2 fun r => { r with stepping := true, warmup := false, overSince := some 4000000000 } } }; let tile := fun (u : State) (i : Nat) => u.eng.tiles.getD i Tile.reset; let i : Fin 16 := 2; let a : Nat := 4000000000; s.eng.tiles.length = 16 ∧ s.flt.sources.length = 32 ∧ s.clk.pstate = .run ∧ (tile s i.val).stepping = true ∧ (tile s i.val).warmup = false ∧ (tile s i.val).overSince = some a ∧ a + sec 1 ≤ s.clk.now)
    ∧ (let s : State := { engS with eng := { engS.eng with overrunRun := 2, tiles := engS.eng.tiles.modify 2 fun r => { r with stepping := true } } }; s.eng.tiles.length = 16 ∧ s.flt.sources.length = 32 ∧ s.clk.pstate = .run ∧ s.eng.tiles.any (·.stepping) = true ∧ 2 ≤ s.eng.overrunRun)
    ∧ (let s : State := { engS with eng := { engS.eng with tiles := engS.eng.tiles.modify 2 fun r => { r with warmup := true } } };
        let tile := fun (u : State) (i : Nat) => u.eng.tiles.getD i Tile.reset; let i : Fin 16 := 2; s.eng.tiles.length = 16
        ∧ s.flt.sources.length = 32 ∧ s.clk.pstate = .run ∧ (tile s i.val).warmup = true ∧ engineIdle s = false ∧ i.val ∈ steppingTiles s)
    ∧ (let s : State := { engS with eng := { engS.eng with stopped := true } }; s.eng.tiles.length = 16 ∧ s.flt.sources.length = 32
        ∧ s.eng.stopped = true) :=
  ⟨by decide +kernel,
   by decide +kernel,
   by decide +kernel,
   by decide +kernel,
   by decide +kernel⟩

theorem test_wit_TheEngineAdapts :
    (let s : State := engS; s.eng.tiles.length = 16 ∧ s.clk.pstate = .run ∧ engineIdle s = false)
    ∧ (let s : State := { engS with clk := { engS.clk with pstate := .watch } }; s.eng.tiles.length = 16 ∧ s.clk.pstate ≠ .run)
    ∧ (let s : State := engS; let tile := fun (u : State) (i : Nat) => u.eng.tiles.getD i Tile.reset; let k : Lvl := 2; let j : Fin 32 := 31;
        let i : Nat := 2; let old := (tile s i).points.getD j.val Imp.reset; s.eng.tiles.length = 16 ∧ s.clk.pstate = .run
        ∧ tileOf s k.val = some i ∧ (tile s i).points.length = 32 ∧ old.subs.length < 4)
    ∧ (let s : State := { engS with eng := { engS.eng with tiles := engS.eng.tiles.modify 2 fun r => { r with points := r.points.set 31 { Imp.reset with subs := List.replicate 4 (1, 0, 0, 0) } } } }; let tile := fun (u : State) (i : Nat) => u.eng.tiles.getD i Tile.reset; let k : Lvl := 2; let j : Fin 32 := 31; let i : Nat := 2; let old := (tile s i).points.getD j.val Imp.reset; s.eng.tiles.length = 16 ∧ s.clk.pstate = .run ∧ tileOf s k.val = some i ∧ (tile s i).points.length = 32 ∧ 4 ≤ old.subs.length ∧ (old.coherence * 100 < (s.parN 0x060B : Rat) ∨ old.powers.2 = 0))
    ∧ (let s : State := { engS with eng := { engS.eng with tiles := engS.eng.tiles.modify 2 fun r => { r with points := r.points.set 31 { Imp.reset with subs := List.replicate 4 (1, 0, 2, 0) } } } }; let tile := fun (u : State) (i : Nat) => u.eng.tiles.getD i Tile.reset; let k : Lvl := 2; let j : Fin 32 := 31; let i : Nat := 2; let old := (tile s i).points.getD j.val Imp.reset; s.eng.tiles.length = 16 ∧ s.clk.pstate = .run ∧ tileOf s k.val = some i ∧ (tile s i).points.length = 32 ∧ 4 ≤ old.subs.length ∧ (s.parN 0x060B : Rat) ≤ old.coherence * 100 ∧ old.powers.2 ≠ 0) :=
  ⟨by decide +kernel,
   by decide +kernel,
   by decide +kernel,
   by decide +kernel⟩

theorem test_wit_TheWellheadRunsItsCycle :
    (let s : State := { admS with rack := { admS.rack with wellhead := true, leaseUntil := 6000000000, epoch := 4 } }; cycling s = true)
    ∧ (let s : State := admS; cycling s = false ∧ (s.rack.wellhead = false ∨ mayHold s = true))
    ∧ (let s : State := { admS with lad := { admS.lad with sby := true }, rack := { admS.rack with wellhead := true } }; s.rack.wellhead = true
        ∧ mayHold s = false)
    ∧ (let s : State := { admS with rack := { admS.rack with wellhead := true, busHu := true, sagClear := some 5000000000 } };
        let at_ : Nat := 5000000000; s.rack.sagClear = some at_ ∧ s.rack.wellhead = true ∧ s.rack.busHu = true) :=
  ⟨by decide +kernel,
   by decide +kernel,
   by decide +kernel⟩

theorem test_wit_StatusIsSentAndTaken :
    (let s : State := admS; s.clk.pstate = .run ∧ s.clk.ringKnown = true ∧ position s ≠ 0 ∧ s.rack.wellhead = false)
    ∧ (let s : State := { admS with rack := { admS.rack with wellhead := true } }; s.clk.pstate = .run ∧ s.clk.ringKnown = true ∧ 1 ≤ position s
        ∧ position s ≤ s.rack.rows.length ∧ s.rack.wellhead = true)
    ∧ (let s : State := { admS with rack := { admS.rack with wellhead := true } }; let p : Port := .lka;
        let f : Frame := sealF (landed s 3) 3 3 (3 :: List.replicate 23 0); let h := fieldAt f.body 0 1; Applies p f s ∧ f.ftype = 3
        ∧ s.rack.wellhead = true ∧ 1 ≤ h ∧ h ≤ s.rack.rows.length)
    ∧ (let s : State := admS; let f : Frame := cmdFrame admS 1; (s.rack.wellhead = false ∨ f.ftype ≠ 3)) :=
  ⟨by decide +kernel,
   by decide +kernel,
   ⟨applies_seal _ _ _ 3 3 _ rfl (by decide +kernel), by decide +kernel⟩,
   by decide +kernel⟩

theorem test_wit_LeadershipChangesHands :
    (let s : State := { admS with rack := { admS.rack with everObeyed := true } }; s.clk.pstate = .run ∧ s.rack.wellhead = false
        ∧ s.rack.everObeyed = true ∧ s.rack.lost = false)
    ∧ (let s : State := { admS with rack := { admS.rack with everObeyed := true, lost := true, lossOpen := true, lostAt := 4999990000, leader := 2, ckpt := some { Checkpoint.reset with succ := [1, 3] }, ckptRecv := 4999000000 } }; let r : Nat := 1; successorRank s = some r ∧ s.rack.wellhead = false ∧ s.rack.lossOpen = true ∧ mayLead s = true ∧ s.clk.now ≤ s.rack.lostAt + slotEnd r)
    ∧ (let s : State := { admS with cfg := { admS.cfg with effective := ⟨0x070F, [3, 1]⟩ :: admS.cfg.effective }, rack := { admS.rack with lost := true } }; let r : Nat := 2; leaderRank s = some r ∧ s.rack.wellhead = false ∧ mayLead s = true ∧ (s.rack.heardCmd = false ∨ s.rack.lost = true))
    ∧ (let s : State := { admS with rack := { admS.rack with wellhead := true, handAt := some 400010, succ := [2, 3] } }; let p : Nat := 400010;
        s.rack.wellhead = true ∧ s.rack.handAt = some p ∧ onRing s = true)
    ∧ (let s : State := { admS with rack := { admS.rack with ckpt := some { Checkpoint.reset with succ := [1, 2], boundary := some 400010 }, ckptRecv := 4999000000 } }; let c : Checkpoint := { Checkpoint.reset with succ := [1, 2], boundary := some 400010 }; let p : Nat := 400010; s.rack.wellhead = false ∧ s.rack.handAt = none ∧ mayLead s = true ∧ s.rack.ckpt = some c ∧ c.boundary = some p ∧ holdsCkpt (advanceRing (10000 * p) s) = true ∧ c.succ.head? = some (position s) ∧ s.rack.ckpt ≠ none) :=
  ⟨by decide +kernel,
   by decide +kernel,
   by decide +kernel,
   by decide +kernel⟩

theorem test_wit_StagedValuesAreAppliedOrDiscarded :
    (let s : State := admS; let records : List Byte := [0x01, 0x07, 2, 1, 100];
        let r := stageRecords s.cfg.params (fittedNow s) (filesNow s) true 128 61 records [] 0; onRing s = true ∧ r.2.2.isSome = true
        ∧ s.cfg.hasPending = false)
    ∧ (let s : State := { admS with cfg := { admS.cfg with order := some (7, 4100000000) } }; onRing s = true ∧ s.cfg.order.isSome = true)
    ∧ (let s : State := admS; let records : List Byte := [0x01, 0x07, 2, 1, 100, 0];
        let r := stageRecords s.cfg.params (fittedNow s) (filesNow s) true 128 61 records [] 0; onRing s = true ∧ r.2.2 = none
        ∧ s.cfg.order = none ∧ canWrite s = true ∧ hasRoom s (itemBytes s { JItems.reset with pending := some (r.1, 0), order := some (0, 0) }) = true)
    ∧ (let s : State := { admS with sup := { admS.sup with holdup := true } }; let records : List Byte := [0x01, 0x07, 2, 1, 100, 0];
        let r := stageRecords s.cfg.params (fittedNow s) (filesNow s) true 128 61 records [] 0; onRing s = true ∧ r.2.2 = none
        ∧ s.cfg.order = none ∧ (canWrite s = false ∨ hasRoom s (itemBytes s { JItems.reset with pending := some (r.1, 0), order := some (0, 0) }) = false))
    ∧ (let s : State := { admS with rack := { admS.rack with staging := true } }; s.rack.staging = true)
    ∧ (let s : State := { admS with cfg := { admS.cfg with hasPending := true, order := some (7, 4100000000) } }; let g : BitVec 32 := 7;
        let tc : Nat := 4100000000; s.cfg.order = some (g, tc) ∧ s.cfg.hasPending = true ∧ mayCommit s (committedItems s) = true)
    ∧ (let s : State := { admS with sup := { admS.sup with holdup := true }, cfg := { admS.cfg with hasPending := true, order := some (7, 4100000000) } }; let g : BitVec 32 := 7; let tc : Nat := 4100000000; s.cfg.order = some (g, tc) ∧ s.cfg.hasPending = true ∧ mayCommit s (committedItems s) = false)
    ∧ (let s : State := { admS with cfg := { admS.cfg with hasPending := true } }; s.cfg.hasPending = true ∧ s.cfg.order = none) :=
  ⟨by decide +kernel,
   by decide +kernel,
   by decide +kernel,
   by decide +kernel,
   by decide +kernel,
   by decide +kernel,
   by decide +kernel⟩

theorem test_wit_ActivationIsGrantedRestartedAndTried :
    (let s : State := { admS with rack := { admS.rack with wellhead := true } }; let src : Byte := 3;
        let data : List Byte := 0x10 :: List.replicate 12 1; s.rack.wellhead = true ∧ data.getD 0 0 = 0x10 ∧ 1 ≤ src.toNat
        ∧ src.toNat ≤ s.rack.rows.length)
    ∧ (let s : State := { admS with rack := { admS.rack with wellhead := true } }; let data : List Byte := 0x11 :: List.replicate 12 1;
        s.rack.wellhead = true ∧ data.getD 0 0 = 0x11)
    ∧ (let s : State := { admS with rack := { admS.rack with wellhead := true, grantTo := some 3 } }; let src : Nat := 2; let h : Nat := 3;
        s.rack.grantTo = some h ∧ h ≠ src ∧ s.rack.grantTo ≠ none)
    ∧ (let s : State := { admS with upd := { admS.upd with actReq := some reqS } }; let req : Req := reqS; let r : Byte := 0x41;
        s.upd.actReq = some req ∧ Room req.mb s ∧ (mail s req.mb).dropRun = [] ∧ (r = 0x02 ∨ r = 0x41) ∧ s.rack.wellhead = false)
    ∧ (let s : State := { admS with host := { admS.host with restart := some (true, 5000000500) } }; let due : Nat := 5000000500;
        s.host.restart = some (true, due) ∧ (s.clk.pstate = .run ∨ s.clk.pstate = .watch))
    ∧ (let s : State := { admS with upd := { admS.upd with trial := some 4999000000 } }; let at_ : Nat := 4999000000; s.clk.pstate = .run
        ∧ s.upd.trial = some at_) :=
  ⟨by decide +kernel,
   by decide +kernel,
   by decide +kernel,
   by decide +kernel,
   by decide +kernel⟩

theorem test_wit_LinesAreSharedAndFramesForwarded :
    (let s : State := admS; let p : Port := .lka; let o := otherPort p; let q := portOf s p; let f : Frame := { cmdFrame admS 1 with hops := 30 };
        onRing s = true ∧ f.ftype = 1 ∧ (portOf s o).state = .up ∧ receiving s o = false ∧ f.hops.toNat < 31 ∧ (portOf s o).sentCmd = false
        ∧ q.sentCmd = false)
    ∧ (let s : State := { admS with ring := { admS.ring with lka := { admS.ring.lka with sentCmd := true } } }; let p : Port := .lka;
        let o := otherPort p; let q := portOf s p; let f : Frame := cmdFrame admS 1; onRing s = true ∧ f.ftype = 1
        ∧ ((portOf s o).sentCmd = true ∨ q.sentCmd = true ∨ receiving s o = true ∨ (portOf s o).state ≠ .up ∨ 31 ≤ f.hops.toNat))
    ∧ (let s : State := { admS with clk := { admS.clk with ring := 4000003000 } }; let p : Port := .lkb; let o := otherPort p;
        let on := fun (f : Frame) => { rehop f f.turned with eof := f.eof && f.crc == frameCrc f };
        let f : Frame := { sealF admS 3 3 (List.replicate 24 0) with hops := 60 }; onRing s = true ∧ f.ftype = 3 ∧ s.rack.wellhead = false
        ∧ f.hops.toNat + 1 < 62 ∧ (portOf s o).state = .up ∧ (portOf s o).busy = none ∧ startsNow s o (on f) = true)
    ∧ (let s : State := { admS with clk := { admS.clk with ring := 4000003000 }, ring := { admS.ring with lkb := { admS.ring.lkb with busy := some (sealF admS 5 3 []), suspended := [(sealF admS 4 3 [], 3, 5)] } } }; let p : Port := .lka; let o := otherPort p; let on := fun (f : Frame) => { rehop f f.turned with eof := f.eof && f.crc == frameCrc f }; let f : Frame := { sealF admS 3 3 (List.replicate 24 0) with hops := 60 }; let g : Frame := sealF admS 5 3 []; onRing s = true ∧ f.ftype = 3 ∧ s.rack.wellhead = false ∧ f.hops.toNat + 1 < 62 ∧ (portOf s o).state = .up ∧ (portOf s o).busy = some g ∧ startsNow s o (on f) = true)
    ∧ (let s : State := { admS with clk := { admS.clk with ring := 4000003000 }, ring := { admS.ring with lkb := { admS.ring.lkb with busy := some (sealF admS 3 3 []) } } }; let p : Port := .lka; let o := otherPort p; let on := fun (f : Frame) => { rehop f f.turned with eof := f.eof && f.crc == frameCrc f }; let f : Frame := { sealF admS 3 3 (List.replicate 24 0) with hops := 60 }; onRing s = true ∧ f.ftype = 3 ∧ s.rack.wellhead = false ∧ f.hops.toNat + 1 < 62 ∧ (portOf s o).state = .up ∧ startsNow s o (on f) = false ∧ ((portOf s o).waiting.map frameSize).foldl (· + ·) 0 + frameSize f ≤ 2048)
    ∧ (let s : State := { admS with clk := { admS.clk with ring := 4000003000 }, ring := { admS.ring with lkb := { admS.ring.lkb with state := .training } } }; let p : Port := .lka; let o := otherPort p; let q := portOf s p; let f : Frame := { sealF admS 3 3 (List.replicate 24 0) with hops := 60 }; onRing s = true ∧ f.ftype = 3 ∧ s.rack.wellhead = false ∧ f.hops.toNat + 1 < 62 ∧ (portOf s o).state ≠ .up ∧ f.turned = false ∧ q.state = .up ∧ (q.waiting.map frameSize).foldl (· + ·) 0 + frameSize f ≤ 2048)
    ∧ (let s : State := admS; let f : Frame := { sealF admS 3 3 (List.replicate 24 0) with hops := 61 }; onRing s = true ∧ f.ftype = 3
        ∧ (s.rack.wellhead = true ∨ 62 ≤ f.hops.toNat + 1))
    ∧ (let s : State := admS; let f : Frame := sealF admS 2 3 []; onRing s = true ∧ (f.ftype = 2 ∨ f.ftype = 5))
    ∧ (let s : State := admS; let f : Frame := sealF admS 8 3 []; onRing s = true ∧ (f.ftype = 0 ∨ 7 < f.ftype.toNat))
    ∧ (let s : State := admS; let p : Port := .lka; let q := portOf s p; let v := closeWindow p (lineEnds p s); let u := suspendBusy p v;
        let r := portOf u p; let pick := fun (f : Frame) => fitsLine u p f && (!r.inGap u.clk.now || decide (f.ftype.toNat ≤ 4)); onRing s = true
        ∧ s.clk.ringKnown = true ∧ q.state = .up ∧ gapDue p v = false
        ∧ (r.inGap u.clk.now = true ∨ r.suspended.head?.all (fun g => !fitsLine u p g.1) = true) ∧ r.waiting.find? pick = none ∧ q.hears = [])
    ∧ (let s : State := { admS with ring := { admS.ring with lka := { admS.ring.lka with busy := some (⟨4, false, 3, 0, 2, 0, List.replicate 8 0, 0, 0, true⟩), txUntil := 5000002000, left := 9 } } }; let p : Port := .lka; let q := portOf s p; let g : Frame := ⟨4, false, 3, 0, 2, 0, List.replicate 8 0, 0, 0, true⟩; onRing s = true ∧ q.state = .up ∧ q.busy = some g)
    ∧ (let s : State := { admS with ring := { admS.ring with lka := { admS.ring.lka with window := true } } }; let p : Port := .lka;
        let q := portOf s p; onRing s = true ∧ q.state = .up ∧ q.window = true ∧ q.sentCmd = false ∧ s.clk.phaseErr = 0)
    ∧ (let s : State := { admS with ring := { admS.ring with lka := { admS.ring.lka with busy := some (⟨4, false, 3, 0, 2, 0, List.replicate 8 0, 0, 0, true⟩), txUntil := 5000002000, left := 9 } } }; let p : Port := .lka; let q := portOf s p; let v := closeWindow p (lineEnds p s); onRing s = true ∧ q.state = .up ∧ gapDue p v = true)
    ∧ (let s : State := { admS with ring := { admS.ring with lka := { admS.ring.lka with waiting := [⟨4, false, 3, 0, 2, 0, List.replicate 8 0, 0, 0, true⟩] } } }; let p : Port := .lka; let q := portOf s p; let v := closeWindow p (lineEnds p s); let u := suspendBusy p v; let r := portOf u p; let pick := fun (f : Frame) => fitsLine u p f && (!r.inGap u.clk.now || decide (f.ftype.toNat ≤ 4)); let f : Frame := ⟨4, false, 3, 0, 2, 0, List.replicate 8 0, 0, 0, true⟩; onRing s = true ∧ q.state = .up ∧ gapDue p v = false ∧ r.waiting.find? pick = some f ∧ (r.inGap u.clk.now = true ∨ r.suspended.all (fun g => decide (f.ftype.toNat < g.1.ftype.toNat)) = true))
    ∧ (let s : State := { admS with ring := { admS.ring with lka := { admS.ring.lka with suspended := [(⟨4, false, 3, 0, 2, 0, List.replicate 8 0, 0, 0, true⟩, 3, 5)] } } }; let p : Port := .lka; let q := portOf s p; let v := closeWindow p (lineEnds p s); let u := suspendBusy p v; let r := portOf u p; let g : Frame × Nat × Nat := (⟨4, false, 3, 0, 2, 0, List.replicate 8 0, 0, 0, true⟩, 3, 5); let gs : List (Frame × Nat × Nat) := []; onRing s = true ∧ q.state = .up ∧ gapDue p v = false ∧ r.inGap u.clk.now = false ∧ r.suspended = g :: gs ∧ q.waiting = [] ∧ fitsLine u p g.1 = true)
    ∧ (let s : State := { admS with ring := { admS.ring with lka := { admS.ring.lka with hears := [(40, 5000001500)] } } }; let p : Port := .lka;
        let q := portOf s p; let h : Nat × Nat := (40, 5000001500); onRing s = true ∧ q.hears.getLast? = some h ∧ 0 < h.1) :=
  ⟨by decide +kernel,
   by decide +kernel,
   by decide +kernel,
   ⟨by decide +kernel, by decide +kernel, by decide +kernel, by decide +kernel, by decide +kernel, rfl, by decide +kernel⟩,
   by decide +kernel,
   by decide +kernel,
   by decide +kernel,
   by decide +kernel,
   by decide +kernel,
   by decide +kernel,
   by decide +kernel,
   by decide +kernel⟩

theorem test_wit_PortsTrainAndTakeRingTime :
    (let s : State := admS; let p : Port := .lka; onLink s = true
        ∧ ((portOf s p).state = .up → s.rack.wellhead = true → s.clk.firstSyncDue = false) ∧ (portOf s p).state ≠ .down
        ∧ ((portOf s p).state = .training → (burstDue p (portOf s p)).isSome = true))
    ∧ (let s : State := restS; let p : Port := .lka; onLink s = true ∧ ((portOf s p).state = .down ∨ ((portOf s p).state = .training
        ∧ burstDue p (portOf s p) = none)) ∧ (portOf s p).state = .down ∧ (portOf s p).heldDown ≤ s.clk.now)
    ∧ (let s : State := admS; let f : Frame := cmdFrame admS 1; onLink s = true ∧ f.ftype ≠ 2)
    ∧ (let s : State := { admS with ring := { admS.ring with lka := { admS.ring.lka with state := .training } } }; let p : Port := .lka;
        let f : Frame := syncF (landed s 2); onLink s = true ∧ f.ftype = 2 ∧ (portOf s p).state ≠ .down
        ∧ syncRejected (endReceipt p f s) p f = none)
    ∧ (let s : State := admS; let p : Port := .lka; let f : Frame := { sealF admS 2 2 [] with eof := false }; let c : Nat := 0; onLink s = true
        ∧ f.ftype = 2 ∧ (portOf s p).state ≠ .down ∧ syncRejected (endReceipt p f s) p f = some c)
    ∧ (let s : State := { admS with ring := { admS.ring with lka := { admS.ring.lka with state := .down, heldDown := 6000000000 } } };
        let p : Port := .lka; onLink s = true ∧ (portOf s p).state = .down ∧ s.clk.now < (portOf s p).heldDown)
    ∧ (let s : State := admS; let p : Port := .lka; onLink s = true ∧ (portOf s p).state ≠ .down)
    ∧ (let s : State := { restS with ring := { restS.ring with lka := { restS.ring.lka with heardAt := some 4999990000 } } }; let p : Port := .lka;
        let due : Nat := 5000040000; onLink s = true ∧ (portOf s p).state = .down ∧ burstDue p (portOf s p) = some due)
    ∧ (let s : State := restS; let p : Port := .lka; onLink s = true ∧ (portOf s p).state = .down ∧ burstDue p (portOf s p) = none) :=
  ⟨by decide +kernel,
   by decide +kernel,
   by decide +kernel,
   ⟨by decide +kernel, by decide +kernel, by decide +kernel, sync_seal .lka _ _ _ (by decide +kernel)⟩,
   by decide +kernel,
   by decide +kernel,
   by decide +kernel,
   by decide +kernel⟩

theorem test_wit_MessagesAreDeliveredOnceAndRetried :
    (let s : State := admS; let p : Port := .lka; let f : Frame := msgF (landed s 4) 5; let data := bytesAt f.body 8 (fieldAt f.body 4 2);
        Applies p f s ∧ f.ftype = 4 ∧ (f.body.headD 0).toNat = position s ∧ f.body.headD 0 ≠ 0xFF ∧ (f.body.getD 1 0).getLsbD 0 = false
        ∧ f.body.getD 6 0 = 0 ∧ (data.getD 3 0).getLsbD 7 = false ∧ s.host.mail.length = 4)
    ∧ (let s : State := admS; let p : Port := .lka; let f : Frame := ackF (landed s 4) 9; Applies p f s ∧ f.ftype = 4
        ∧ (f.body.headD 0).toNat = position s ∧ (f.body.getD 1 0).getLsbD 0 = true ∧ s.ring.msgQueue = [])
    ∧ (let s : State := { admS with cfg := { admS.cfg with effective := ⟨0x0200, [281474976841728]⟩ :: admS.cfg.effective } };
        let f : Frame := msgF admS 5; (f.ftype ≠ 4 ∨ (f.body.headD 0 ≠ 0xFF ∧ (f.body.headD 0).toNat ≠ position s)))
    ∧ (let s : State := { admS with ring := { admS.ring with flight := [⟨3, 0, 9, false, [], .lka, 3, 5000000010⟩] } }; let dst : Byte := 3;
        let m : Msg := ⟨3, 0, 9, false, [], .lka, 3, 5000000010⟩; s.ring.flight.find? (·.dst == dst) = some m ∧ m.tries < 4)
    ∧ (let s : State := { admS with ring := { admS.ring with flight := [⟨3, 0, 9, false, [], .lka, 4, 5000000010⟩] } }; let dst : Byte := 3;
        let m : Msg := ⟨3, 0, 9, false, [], .lka, 4, 5000000010⟩; s.ring.flight.find? (·.dst == dst) = some m ∧ 4 ≤ m.tries) :=
  ⟨⟨applies_seal _ _ _ 4 3 _ rfl (by decide +kernel), by decide +kernel⟩,
   ⟨applies_seal _ _ _ 4 3 _ rfl (by decide +kernel), by decide +kernel⟩,
   by decide +kernel,
   by decide +kernel⟩

theorem test_wit_ImageAndSleepFramesAct :
    (let s : State := { imgS with upd := { imgS.upd with chunks := [9] } }; let p : Port := .lka; let f : Frame := imgF (landed s 5) 9;
        let i := fieldAt f.body 4 2; Applies p f s ∧ f.ftype = 5 ∧ s.ring.relaySrc = false ∧ s.ring.relaying = true
        ∧ s.ring.relayId = BitVec.ofNat 32 (fieldAt f.body 0 4) ∧ s.upd.img = .partly ∧ activationRuns s = false ∧ canWrite s = true
        ∧ i < fieldAt f.body 6 2 ∧ fieldAt f.body 6 2 ≤ 2048 ∧ Memory.wf (patchSlot s (inactiveSlot s)) = true ∧ s.upd.chunks.contains i = true)
    ∧ (let s : State := imgS; let p : Port := .lka; let f : Frame := imgF (landed s 5) 9; let i := fieldAt f.body 4 2; Applies p f s
        ∧ f.ftype = 5 ∧ s.ring.relaySrc = false ∧ s.ring.relaying = true ∧ s.ring.relayId = BitVec.ofNat 32 (fieldAt f.body 0 4)
        ∧ s.upd.img = .partly ∧ activationRuns s = false ∧ canWrite s = true ∧ i < fieldAt f.body 6 2 ∧ fieldAt f.body 6 2 ≤ 2048
        ∧ Memory.wf (patchSlot s (inactiveSlot s)) = true ∧ s.upd.chunks.contains i = false ∧ s.upd.chunks.length + 1 < s.ring.relayCount)
    ∧ (let s : State := { imgS with ring := { imgS.ring with lka := { imgS.ring.lka with imageQ := [9, 10] } } }; let p : Port := .lka;
        let i : Nat := 9; let is : List Nat := [10]; onRing s = true ∧ (portOf s p).state = .up ∧ (portOf s p).imageQ = i :: is
        ∧ s.ring.relaySrc = false ∧ position s ≠ 0)
    ∧ (let s : State := { imgS with ring := { imgS.ring with relaySrc := true, relayCount := 2048, lka := { imgS.ring.lka with nextImage := 2046 } } }; let p : Port := .lka; onRing s = true ∧ (portOf s p).state = .up ∧ (portOf s p).imageQ = [] ∧ s.ring.relaySrc = true ∧ s.ring.relaying = true ∧ (portOf s p).nextImage + 1 < s.ring.relayCount ∧ position s ≠ 0)
    ∧ (let s : State := admS; let p : Port := .lka; let f : Frame := slpF (landed s 7) 1 0; Applies p f s ∧ f.ftype = 7 ∧ s.rack.wellhead = false
        ∧ fieldAt f.body 17 1 = 0)
    ∧ (let s : State := { admS with rack := { admS.rack with wellhead := true, voteNo := 6, sleepAt := some 4003000000 } }; let p : Port := .lka;
        let f : Frame := slpF (landed s 7) 4 3; let tc : Nat := 4003000000; Applies p f s ∧ f.ftype = 7 ∧ s.rack.wellhead = true
        ∧ fieldAt f.body 17 1 ≠ 0 ∧ BitVec.ofNat 32 (fieldAt f.body 4 4) = s.rack.voteNo ∧ fieldAt f.body 16 1 = 4 ∧ s.rack.sleepAt = some tc)
    ∧ (let s : State := { admS with rack := { admS.rack with wellhead := true, voteNo := 6, voting := true } }; let p : Port := .lka;
        let f : Frame := slpF (landed s 7) 3 3; Applies p f s ∧ f.ftype = 7 ∧ s.rack.wellhead = true ∧ fieldAt f.body 17 1 ≠ 0
        ∧ BitVec.ofNat 32 (fieldAt f.body 4 4) = s.rack.voteNo ∧ (fieldAt f.body 16 1 = 3 ∨ (fieldAt f.body 16 1 = 4 ∧ s.rack.sleepAt = none))
        ∧ s.rack.voting = true) :=
  ⟨⟨applies_seal _ _ _ 5 3 _ rfl (by decide +kernel), by decide +kernel⟩,
   ⟨applies_seal _ _ _ 5 3 _ rfl (by decide +kernel), by decide +kernel⟩,
   by decide +kernel,
   by decide +kernel,
   ⟨applies_seal _ _ _ 7 2 _ rfl (by decide +kernel), by decide +kernel⟩,
   ⟨applies_seal _ _ _ 7 2 _ rfl (by decide +kernel), by decide +kernel⟩,
   ⟨applies_seal _ _ _ 7 2 _ rfl (by decide +kernel), by decide +kernel⟩⟩

theorem test_wit_CutsAreLatched :
    (let s : State := { admS with cnt := { admS.cnt with orders := [(7, 3, 4100000000)] } }; let order : BitVec 32 := 7;
        let epoch : BitVec 32 := 3; let at_ : Nat := 4100000000; let rest : List (BitVec 32 × BitVec 32 × Nat) := []; s.clk.pstate = .run
        ∧ s.clk.inReset = none ∧ s.cnt.orders = (order, epoch, at_) :: rest ∧ s.nv.cutWait = [])
    ∧ (let s : State := { admS with nv := { admS.nv with cutWait := [Cut.reset] } }; s.nv.cutWait ≠ [])
    ∧ (let s : State := admS; let p : Port := .lka; let f : Frame := snapF (landed s 6) 8 (landed s 6).clk.ring; let due := fieldAt f.body 8 8;
        Applies p f s ∧ f.ftype = 6 ∧ ((endReceipt p f s).clk.ring ≤ due ∨ s.cnt.orders ≠ [] ∨ s.nv.cutWait ≠ []))
    ∧ (let s : State := admS; let p : Port := .lka; let f : Frame := snapF (landed s 6) 8 3999999999; let due := fieldAt f.body 8 8;
        Applies p f s ∧ f.ftype = 6 ∧ due < (endReceipt p f s).clk.ring ∧ s.cnt.orders = [] ∧ s.nv.cutWait = [])
    ∧ (let k : Fin 96 := 40; 24 ≤ k.val ∧ k.val ≤ 40)
    ∧ (let k : Fin 96 := 41; (k.val < 24 ∨ 40 < k.val)) :=
  ⟨by decide +kernel,
   by decide +kernel,
   ⟨applies_seal _ _ _ 6 2 _ rfl (by decide +kernel), by decide +kernel⟩,
   ⟨applies_seal _ _ _ 6 2 _ rfl (by decide +kernel), by decide +kernel⟩,
   by decide +kernel⟩

theorem test_wit_RecordsAndCapturesAreWritten :
    (let s : State := { admS with nv := { admS.nv with lastFullTime := some 3900000000 } }; let at_ : Nat := 3900000000; s.clk.pstate = .run
        ∧ s.nv.lastFullTime = some at_ ∧ s.clk.ringKnown = true ∧ canWrite s = true ∧ s.nv.buffer = [])
    ∧ (let s : State := { admS with cfg := { admS.cfg with effective := ⟨0x0901, [60]⟩ :: admS.cfg.effective } }; s.par 0x0901 ≠ 0
        ∧ (s.clk.pstate = .run ∨ s.clk.pstate = .watch) ∧ canWrite s = true ∧ s.nv.buffer = [])
    ∧ (let s : State := { admS with cfg := { admS.cfg with effective := ⟨0x0901, [0]⟩ :: admS.cfg.effective } }; s.par 0x0901 = 0)
    ∧ (let s : State := { admS with sup := { admS.sup with holdup := true } }; canWrite s = false)
    ∧ (let s : State := { admS with cfg := { admS.cfg with effective := ⟨0x0902, [8]⟩ :: admS.cfg.effective } }; let cause : Fin 4 := 3;
        s.clk.pstate = .run ∧ s.nv.capture = .idle ∧ (s.parN 0x0902).testBit cause.val = true)
    ∧ (let s : State := { admS with cfg := { admS.cfg with effective := ⟨0x0902, [7]⟩ :: admS.cfg.effective } }; let cause : Fin 4 := 3;
        (s.clk.pstate ≠ .run ∨ s.nv.capture ≠ .idle ∨ (s.parN 0x0902).testBit cause.val = false))
    ∧ (let s : State := { admS with nv := { admS.nv with capture := .running, capLeft := 0 } }; s.nv.capture = .running ∧ s.nv.capLeft = 0)
    ∧ (let s : State := { admS with nv := { admS.nv with capture := .holdoff } }; s.nv.capture = .holdoff) :=
  ⟨by decide +kernel,
   by decide +kernel,
   by decide +kernel,
   by decide +kernel,
   by decide +kernel,
   by decide +kernel,
   by decide +kernel⟩

theorem test_wit_TheJournalIsReplayedCompactedAndScrubbed :
    (let s : State := { restS with clk := { restS.clk with replayed := false } }; s.clk.replayed = false ∧ chooseRegion s = none)
    ∧ (let s : State := jrnS; let b : Bool := false; s.clk.replayed = false ∧ chooseRegion s = some b)
    ∧ (let s : State := restS; s.clk.replayed = true)
    ∧ (let s : State := { runS with nv := { runS.nv with compact := some (1, 3) } }; let sq : BitVec 32 := 3; canWrite s = true
        ∧ s.nv.compact = some (1, sq))
    ∧ (let s : State := { runS with nv := { runS.nv with compact := some (2, 3) } }; let sq : BitVec 32 := 3; canWrite s = true
        ∧ s.nv.compact = some (2, sq))
    ∧ (let s : State := { runS with nv := { runS.nv with compact := some (3, 3) } }; let sq : BitVec 32 := 3; canWrite s = true
        ∧ s.nv.compact = some (3, sq))
    ∧ (let s : State := { runS with nv := { runS.nv with compact := some (4, 3) } }; let sq : BitVec 32 := 3; canWrite s = true
        ∧ s.nv.compact = some (4, sq) ∧ toCopy s = [])
    ∧ (let s : State := { runS with nv := { runS.nv with compact := some (5, 3) } }; let sq : BitVec 32 := 3; canWrite s = true
        ∧ s.nv.compact = some (5, sq))
    ∧ (let s : State := { runS with sup := { runS.sup with holdup := true } }; canWrite s = false)
    ∧ (let s : State := runS; (s.clk.pstate = .run ∨ s.clk.pstate = .watch) ∧ s.flt.injections = []) :=
  ⟨by decide +kernel,
   by decide +kernel,
   by decide +kernel,
   by decide +kernel,
   by decide +kernel,
   by decide +kernel,
   by decide +kernel,
   by decide +kernel,
   by decide +kernel⟩

theorem test_wit_RegulatorsStartAndLatchOff :
    (let s : State := railIs 0 .checking stillS; let x : Fin 4 := 0; let r := railOf s x.val; shoreRuns s = true ∧ s.aux.rails.length = 4
        ∧ s.aux.seqWait = false ∧ s.aux.shed = [] ∧ r.st = .checking)
    ∧ (let s : State := { stillS with aux := { stillS.aux with rails := stillS.aux.rails.modify 0 fun r => { r with st := .off, startAt := some 5000000007 } } }; let x : Fin 4 := 0; let r := railOf s x.val; let due : Nat := 5000000007; shoreRuns s = true ∧ s.aux.rails.length = 4 ∧ s.aux.seqWait = false ∧ s.aux.shed = [] ∧ r.st = .off ∧ r.startAt = some due ∧ s.sup.holdup = false)
    ∧ (let s : State := railIs 3 .regulating admS; let x : Fin 4 := 3; let r := railOf s x.val; shoreRuns s = true ∧ s.aux.rails.length = 4
        ∧ s.aux.seqWait = false ∧ s.aux.shed = [] ∧ r.st ≠ .checking ∧ r.startAt = none)
    ∧ (let s : State := railIs 3 .softStart admS; let x : Fin 4 := 3; let r := railOf s x.val; let rd : ChanReading := ⟨0, 2399, 0, 0, 0⟩;
        shoreRuns s = true ∧ s.aux.rails.length = 4 ∧ s.aux.seqWait = false ∧ s.aux.shed = [] ∧ r.st = .softStart ∧ 5 * rd.vout.toNat < r.vset)
    ∧ (let s : State := railIs 3 .softStart admS; let x : Fin 4 := 3; let r := railOf s x.val; let rd : ChanReading := ⟨0, 2400, 0, 0, 0⟩;
        shoreRuns s = true ∧ s.aux.rails.length = 4 ∧ s.aux.seqWait = false ∧ s.aux.shed = [] ∧ r.st = .softStart ∧ r.vset ≤ 5 * rd.vout.toNat)
    ∧ (let s : State := railIs 3 .regulating admS; let x : Fin 4 := 3; let r := railOf s x.val; shoreRuns s = true ∧ s.aux.rails.length = 4
        ∧ s.aux.seqWait = false ∧ s.aux.shed = [] ∧ r.st ≠ .softStart)
    ∧ (let s : State := railIs 3 .regulating admS; let x : Fin 4 := 3; let r := railOf s x.val; let why : RailTrip := .limited;
        shoreRuns s = true ∧ s.aux.rails.length = 4 ∧ s.aux.seqWait = false ∧ s.aux.shed = []
        ∧ (r.st = .regulating ∨ r.st = .burst ∨ (r.st = .softStart ∧ why ≠ .limited)))
    ∧ (let s : State := railIs 3 .off admS; let x : Fin 4 := 3; let r := railOf s x.val; shoreRuns s = true ∧ s.aux.rails.length = 4
        ∧ s.aux.seqWait = false ∧ s.aux.shed = [] ∧ r.st ≠ .regulating ∧ r.st ≠ .burst ∧ r.st ≠ .softStart)
    ∧ (let s : State := railIs 3 .regulating admS; let x : Fin 4 := 3; let r := railOf s x.val; shoreRuns s = true ∧ s.aux.rails.length = 4
        ∧ s.aux.seqWait = false ∧ s.aux.shed = [] ∧ (r.st = .softStart ∨ r.st = .regulating ∨ r.st = .burst) ∧ r.pg = false)
    ∧ (let s : State := railIs 3 .off admS; let x : Fin 4 := 3; let r := railOf s x.val; shoreRuns s = true ∧ s.aux.rails.length = 4
        ∧ s.aux.seqWait = false ∧ s.aux.shed = [] ∧ ((r.st ≠ .softStart ∧ r.st ≠ .regulating ∧ r.st ≠ .burst) ∨ r.pg = true))
    ∧ (let s : State := railIs 2 .latchedOff stillS; let x : Fin 4 := 2; let r := railOf s x.val; shoreRuns s = true ∧ s.aux.rails.length = 4
        ∧ s.aux.seqWait = false ∧ s.aux.shed = [] ∧ x.val ≠ 3 ∧ r.st = .latchedOff ∧ r.stuck = false)
    ∧ (let s : State := { runS with aux := { runS.aux with rails := runS.aux.rails.map fun r => { r with stuck := true } } }; let x : Fin 4 := 0;
        let r := railOf s x.val; shoreRuns s = true ∧ s.aux.rails.length = 4 ∧ s.aux.seqWait = false ∧ s.aux.shed = []
        ∧ (r.stuck = true ∨ r.st ≠ .latchedOff ∨ x.val = 3))
    ∧ (let s : State := railIs 3 .regulating admS; shoreRuns s = true ∧ s.aux.rails.length = 4 ∧ s.aux.seqWait = false ∧ s.aux.shed = []
        ∧ ((railOf s 3).st = .softStart ∨ (railOf s 3).st = .regulating))
    ∧ (let s : State := railIs 3 .off admS; shoreRuns s = true ∧ s.aux.rails.length = 4 ∧ s.aux.seqWait = false ∧ s.aux.shed = []
        ∧ (railOf s 3).st ≠ .softStart ∧ (railOf s 3).st ≠ .regulating) :=
  ⟨by decide +kernel,
   by decide +kernel,
   by decide +kernel,
   by decide +kernel,
   by decide +kernel,
   by decide +kernel,
   by decide +kernel,
   by decide +kernel,
   by decide +kernel,
   by decide +kernel⟩

theorem test_wit_FusesPassAndTrip :
    (let s : State := fuseIs 5 .preCheck admS; let x : Fin 6 := 5; let rd : ChanReading := ⟨65535, 0, 0, 0, 0⟩; let f := fuseOf s x.val;
        shoreRuns s = true ∧ s.aux.fuses.length = 6 ∧ s.aux.seqWait = false ∧ s.aux.shed = [] ∧ f.st = .preCheck
        ∧ 5 * fusePar s x.val 6 ≤ rd.vin.toNat)
    ∧ (let s : State := fuseIs 5 .preCheck admS; let x : Fin 6 := 5; let rd : ChanReading := ⟨0, 0, 0, 0, 0⟩; let f := fuseOf s x.val;
        shoreRuns s = true ∧ s.aux.fuses.length = 6 ∧ s.aux.seqWait = false ∧ s.aux.shed = [] ∧ f.st = .preCheck
        ∧ rd.vin.toNat < 5 * fusePar s x.val 6)
    ∧ (let s : State := fuseIs 4 .ramping admS; let x : Fin 6 := 4; let f := fuseOf s x.val; shoreRuns s = true ∧ s.aux.fuses.length = 6
        ∧ s.aux.seqWait = false ∧ s.aux.shed = [] ∧ f.isOn = true ∧ f.pg = false ∧ 4 ≤ x.val ∧ (f.st = .on ∨ f.st = .ramping))
    ∧ (let s : State := fuseIs 3 .on admS; let x : Fin 6 := 3; let f := fuseOf s x.val; shoreRuns s = true ∧ s.aux.fuses.length = 6
        ∧ s.aux.seqWait = false ∧ s.aux.shed = [] ∧ f.isOn = true ∧ x.val < 4)
    ∧ (let s : State := admS; let x : Fin 6 := 3; let f := fuseOf s x.val; shoreRuns s = true ∧ s.aux.fuses.length = 6 ∧ s.aux.seqWait = false
        ∧ s.aux.shed = [] ∧ f.isOn = false ∧ x.val < 4)
    ∧ (let s : State := fuseIs 5 .limiting admS; let x : Fin 6 := 5; let f := fuseOf s x.val; shoreRuns s = true ∧ s.aux.fuses.length = 6
        ∧ s.aux.seqWait = false ∧ s.aux.shed = [] ∧ 4 ≤ x.val ∧ f.st = .limiting) :=
  ⟨by decide +kernel,
   by decide +kernel,
   by decide +kernel,
   by decide +kernel,
   by decide +kernel⟩

theorem test_wit_TheSequenceAndFltNAct :
    (let s : State := seqS [0x31, 0x03]; shoreRuns s = true ∧ s.aux.rails.length = 4 ∧ s.aux.fuses.length = 6 ∧ seqMayRun s = true
        ∧ s.aux.seqRun = .starting ∧ (s.aux.seqPos = 0 ∨ stepStarting s ((seqList s).getD (s.aux.seqPos - 1) 0) = false))
    ∧ (let s : State := { seqS [0x21, 0x03] with aux := { (seqS [0x21, 0x03]).aux with seqRun := .shutting, seqPos := 0 } };
        let mv : Option Nat := some 65000; let c := (shutList s).getD s.aux.seqPos 0; shoreRuns s = true ∧ s.aux.rails.length = 4
        ∧ s.aux.fuses.length = 6 ∧ s.aux.seqRun = .shutting ∧ s.aux.seqWait = false ∧ (∃ v, mv = some v ∧ fallen c v s = false))
    ∧ (let s : State := { seqS [0x21, 0x03] with aux := { (seqS [0x21, 0x03]).aux with seqRun := .shutting, seqPos := 1 } };
        let mv : Option Nat := none; let c := (shutList s).getD s.aux.seqPos 0; shoreRuns s = true ∧ s.aux.rails.length = 4
        ∧ s.aux.fuses.length = 6 ∧ s.aux.seqRun = .shutting ∧ s.aux.seqWait = false ∧ (∀ v, mv = some v → fallen c v s = true))
    ∧ (let s : State := { seqS [0x21] with aux := { (seqS [0x21]).aux with seqRun := .lead, leadDue := some 5000000500 } };
        let at_ : Nat := 5000000500; shoreRuns s = true ∧ s.aux.rails.length = 4 ∧ s.aux.fuses.length = 6 ∧ s.aux.leadDue = some at_
        ∧ s.aux.seqRun = .lead)
    ∧ (let s : State := runS; shoreRuns s = true ∧ s.aux.rails.length = 4 ∧ s.aux.fuses.length = 6 ∧ s.aux.fltExt = false ∧ s.aux.fltOwn = none)
    ∧ (let s : State := { runS with aux := { runS.aux with fltExt := true } }; shoreRuns s = true ∧ s.aux.rails.length = 4
        ∧ s.aux.fuses.length = 6 ∧ s.aux.fltExt = true ∧ s.aux.fltOwn = none)
    ∧ (let s : State := { runS with aux := { runS.aux with fltExt := true, fltOwn := some 5000000004 } }; let at_ : Nat := 5000000004;
        shoreRuns s = true ∧ s.aux.rails.length = 4 ∧ s.aux.fuses.length = 6 ∧ s.aux.fltExt = true ∧ s.aux.fltOwn ≠ none ∧ s.aux.fltOwn = some at_)
    ∧ (let s : State := { runS with aux := { runS.aux with restartAt := some 5000000004 } }; let at_ : Nat := 5000000004; shoreRuns s = true
        ∧ s.aux.rails.length = 4 ∧ s.aux.fuses.length = 6 ∧ s.aux.restartAt = some at_ ∧ fltLow s = false ∧ s.sup.holdup = false) :=
  ⟨by decide +kernel,
   ⟨by decide +kernel, by decide +kernel, by decide +kernel, by decide +kernel, by decide +kernel, ⟨65000, rfl, by decide +kernel⟩⟩,
   ⟨by decide +kernel, by decide +kernel, by decide +kernel, by decide +kernel, by decide +kernel, by intro v h; cases h⟩,
   by decide +kernel,
   by decide +kernel,
   by decide +kernel,
   by decide +kernel⟩

theorem test_wit_DieTemperaturesAndSafeMode :
    (let s : State := { admS with flt := { admS.flt with ctrl := List.replicate 12 2500, ctrlOut := List.replicate 12 false } };
        let j : Fin 12 := 11; (s.clk.pstate = .run ∨ s.clk.pstate = .watch) ∧ s.flt.ctrlOut.getD j.val true = false ∧ j.val < s.flt.ctrl.length
        ∧ j.val < s.flt.ctrlOut.length)
    ∧ (let s : State := { admS with flt := { admS.flt with power := List.replicate 12 2500, powerOut := List.replicate 12 false } };
        let j : Fin 12 := 11; s.clk.pstate ≠ .off ∧ s.flt.powerOut.getD j.val true = false ∧ j.val < s.flt.power.length ∧ s.lad.levels.length = 16)
    ∧ (let s : State := stillS; (s.clk.pstate = .off ∨ s.clk.pstate = .still))
    ∧ (let s : State := { admS with flt := { admS.flt with powerOut := List.replicate 12 true } }; let power : Bool := true; let j : Fin 12 := 11;
        sensorOut power j.val s = true)
    ∧ (let s : State := { admS with flt := { admS.flt with safe := true }, eng := { admS.eng with coolSince := some 4999999999 } };
        let at_ : Nat := 4999999999; s.flt.safe = true ∧ s.eng.coolSince = some at_)
    ∧ (let s : State := { admS with flt := { admS.flt with safe := true, ctrl := List.replicate 12 14000, ctrlOut := List.replicate 12 false } };
        s.flt.safe = true ∧ atShutdown s = true ∧ s.flt.fatalSrc ≠ some 27)
    ∧ (let s : State := admS; s.flt.safe = false) :=
  ⟨by decide +kernel,
   by decide +kernel,
   by decide +kernel,
   by decide +kernel,
   by decide +kernel,
   by decide +kernel⟩

theorem test_wit_FaultsAreLatchedGradedAndEnd :
    (let s : State := admS; let b : Fin 32 := 3; s.flt.sources.length = 32 ∧ eventBit b.val = true ∧ b.val ≠ 16)
    ∧ (let s : State := admS; s.flt.sources.length = 32)
    ∧ (let s : State := admS; let b : Fin 32 := 2; s.flt.sources.length = 32 ∧ eventBit b.val = false)
    ∧ (let s : State := { admS with flt := { admS.flt with sources := admS.flt.sources.modify 21 fun r => { r with severe := true } } };
        let b : Fin 32 := 21; s.flt.sources.length = 32 ∧ (sourceRec s b.val).severe = true)
    ∧ (let s : State := admS; let b : Fin 32 := 21; s.flt.sources.length = 32 ∧ (sourceRec s b.val).severe = false)
    ∧ (let s : State := { admS with flt := { admS.flt with injections := [⟨5, 0x0101, 2, 9, some 5000000004⟩] } }; let id : Byte := 5;
        let i : Injection := ⟨5, 0x0101, 2, 9, some 5000000004⟩; let at_ : Nat := 5000000004; s.flt.sources.length = 32
        ∧ s.flt.injections.find? (·.id == id) = some i ∧ i.ends = some at_)
    ∧ (let s : State := admS; let id : Byte := 5; s.flt.sources.length = 32
        ∧ (s.flt.injections.find? (·.id == id)).all (fun i => i.ends.isNone) = true) :=
  ⟨by decide +kernel,
   by decide +kernel,
   by decide +kernel,
   by decide +kernel,
   by decide +kernel,
   by decide +kernel⟩

theorem test_wit_TheDebugPortReadsAndHalts :
    (let s : State := dbgS; debugOpen s = true)
    ∧ (let s : State := dbgS; let a : BitVec 23 := (0 : BitVec 23); let n : Nat := 3; debugOpen s = true ∧ s.flt.injections = []
        ∧ (∀ i, i < n → s.nv.badPages.contains ((a.toNat + i) / 256) = false))
    ∧ (let s : State := dbgS; let cp : Bool := true; let lp : Bool := false; let k : BitVec 2 := (0 : BitVec 2); debugOpen s = true
        ∧ (cp || lp) = true ∧ s.dbg.lock = 0 ∧ (k = 0 ∨ processorRuns s = false))
    ∧ (let s : State := { dbgS with dbg := { dbgS.dbg with lock := 3 } }; let cp : Bool := true; let lp : Bool := false;
        let k : BitVec 2 := (0 : BitVec 2); debugOpen s = true ∧ (cp || lp) = true ∧ (s.dbg.lock ≠ 0 ∨ (k ≠ 0 ∧ processorRuns s = true)))
    ∧ (let s : State := runS; debugOpen s = false ∧ s.key.life ≠ .returned)
    ∧ (let s : State := { dbgS with dbg := { dbgS.dbg with pend := some (true, false) } }; let cp : Bool := true; let lp : Bool := false;
        s.dbg.pend = some (cp, lp) ∧ isAdmitted s = false)
    ∧ (let s : State := { admS with key := { admS.key with life := .returned }, host := { admS.host with mail := List.replicate 4 { MailS.reset with level := .maker } } }; debugOpen s = true ∧ s.key.life = .returned) :=
  ⟨by decide +kernel,
   ⟨by decide +kernel, by decide +kernel, fun i _ => by simp [dbgS, runS, restS, State.reset, Store.reset]⟩,
   by decide +kernel,
   by decide +kernel,
   by decide +kernel,
   by decide +kernel⟩

end Sys2Proof.Tests
end

section
/-! PROOF. O9: what the windows discard, what an answer does at a full response queue, and that the drains of the ring and the service UART leave
the response queues of the other mailboxes (R303). -/

namespace Sys2Proof.Machine

/-! A mailbox is read from the list of mailboxes alone -/

theorem mail_eq_of_hostMail {s t : State} (h : t.host.mail = s.host.mail) (mb : Mailbox) : mail t mb = mail s mb := by rw [mail, h]; rfl

@[simp] theorem mail_count (c : Nat) (s : State) (mb : Mailbox) : mail (count c s) mb = mail s mb := rfl

/-! A window write that is discarded -/

theorem exec_reqwinPush {bytes : List Byte} {s : State} (h : portAnswers s = true) :
    exec (.reqwinPush bytes) s = .next (pushWindow .host bytes s) := by
  change execReqwinPush bytes s = _
  rw [execReqwinPush, if_pos h]

/-- Address 0x20 is REQWIN (R297). -/
theorem exec_registerWrite_reqwin {bytes : List Byte} {s : State} (h : portAnswers s = true) :
    exec (.registerWrite 0x20 bytes) s = .next (pushWindow .host bytes s) := by
  change execRegisterWrite 0x20 bytes s = _
  rw [execRegisterWrite, if_neg (by simp [h]), if_pos rfl]

theorem pushWindow_discards {bytes : List Byte} {s : State} (h : bytes.length ≠ 256 ∨ hostReady s = false) :
    pushWindow .host bytes s = modMail .host (fun m => { m with winErr := true }) s := by
  unfold pushWindow
  split
  case isTrue hlen =>
    have hready : hostReady s = false := h.resolve_left (absurd hlen)
    rw [enqueue, if_pos (by simp [hready])]
  case isFalse => rfl

theorem pushWindow_overflows {bytes : List Byte} {s : State} (hlen : bytes.length = 256) (hready : hostReady s = true)
    (hreset : s.clk.inReset = none) (hfull : 8 ≤ (mail s .host).reqQ.length) :
    pushWindow .host bytes s = count 69 (modMail .host (fun m => { m with reqOvf := true }) s) := by
  rw [pushWindow, if_pos hlen, enqueue, if_neg (by simp [hready]), if_neg (by simp [hreset]), if_neg (by omega)]

/-! A response without room, and the processor's turn -/

/-- A response that finds no room waits behind those held before it (R303). -/
theorem mail_pushEntry_held {mb : Mailbox} {e : Entry} {s : State} (hl : s.host.mail.length = 4) (h : ¬Room mb s) :
    mail (pushEntry mb e s) mb = { mail s mb with held := (mail s mb).held ++ [e] } := by
  rw [pushEntry, mail_modMail hl, if_neg fun ⟨hq, hh⟩ => h ⟨hl, hq, hh⟩]

/-- A mailbox that is served takes a response at once (R303). -/
theorem Room.of_servable {mb : Mailbox} {s : State} (hl : s.host.mail.length = 4) (h : servable s mb = true) : Room mb s := by
  simp only [servable, Bool.and_eq_true, decide_eq_true_eq, List.isEmpty_iff] at h
  obtain ⟨⟨⟨⟨⟨-, hheld⟩, hq⟩, -⟩, -⟩, -⟩ := h
  exact ⟨hl, hq, hheld⟩

theorem exec_requestPop {s : State} (h : processorRuns s = true) :
    exec .requestPop s = .next s ∨ ∃ mb, servable s mb = true ∧ exec .requestPop s = .next (drainLinks (popRequest mb s)) := by
  change execRequestPop s = _ ∨ ∃ mb, _ ∧ execRequestPop s = _
  rw [execRequestPop, if_pos h]
  cases hfind : (serveOrderOf s.host.turn).find? (servable s) with
  | none => exact .inl rfl
  | some mb => exact .inr ⟨mb, List.find?_some hfind, rfl⟩

/-! What the host port keeps while messages are sent -/

@[simp] theorem modPort_host (p : Port) (f : PortS → PortS) (s : State) : (modPort p f s).host = s.host := by cases p <;> rfl

@[simp] theorem startFrame_host (p : Port) (f : Frame) (s : State) : (startFrame p f s).host = s.host := by
  rw [startFrame, modPort_host, burst, modPort_host]

@[simp] theorem sendFrame_host (p : Port) (f : Frame) (s : State) : (sendFrame p f s).host = s.host := by
  unfold sendFrame; dsimp only
  split
  · rfl
  split
  · rw [startFrame_host, suspendBusy, modPort_host]
  split
  · exact modPort_host ..
  · rfl

@[simp] theorem floodBody_host (y : Nat) (body : List Byte) (s : State) : (floodBody y body s).host = s.host := by
  unfold floodBody flood; dsimp only
  split
  · rfl
  · rw [count_host, sendFrame_host, sendFrame_host]; rfl

@[simp] theorem route_host (p : Port) (y : Nat) (body : List Byte) (s : State) : (route p y body s).host = s.host := by
  unfold route sendOwn; dsimp only
  split
  · rfl
  · rw [count_host, sendFrame_host]; rfl

@[simp] theorem sendMsg_host (dst : Nat) (chan : Byte) (data : List Byte) (s : State) : (sendMsg dst chan data s).host = s.host := by
  unfold sendMsg; dsimp only
  split
  · rfl
  split
  · exact floodBody_host ..
  split
  · rfl
  · exact route_host ..

/-! What the drains leave in the mailboxes -/

@[simp] theorem notePopped_hostMail (e : Entry) (s : State) : (notePopped e s).host.mail = s.host.mail := by
  unfold notePopped
  split
  · extract_lets mine; split <;> rfl
  · rfl

theorem foldl_notePopped_hostMail (l : List Entry) (s : State) : (l.foldl (fun st e => notePopped e st) s).host.mail = s.host.mail := by
  induction l generalizing s with
  | nil => rfl
  | cons e l ih => rw [List.foldl_cons, ih, notePopped_hostMail]

theorem sendResponses_hostMail (l : List Entry) (s : State) : (sendResponses l s).host.mail = s.host.mail := by
  induction l generalizing s with
  | nil => rfl
  | cons e l ih =>
    rw [sendResponses]; dsimp only
    rw [ih, notePopped_hostMail]
    split
    · rw [sendMsg_host]
    · rfl

/-- The service UART takes responses of its own mailbox alone (R389). -/
theorem mail_drainUart {mb : Mailbox} (h : mb ≠ .uart) (s : State) : mail (drainUart s) mb = mail s mb := by
  unfold drainUart; dsimp only
  split
  · rw [mail_modMail_ne h]
    exact mail_eq_of_hostMail (foldl_notePopped_hostMail _ s) mb
  · rfl

/-- The message transport takes responses of the ring mailbox alone (R248). -/
theorem mail_drainRing {mb : Mailbox} (h : mb ≠ .ring) (s : State) : mail (drainRing s) mb = mail s mb := by
  unfold drainRing; dsimp only
  split
  · rfl
  · rw [mail_eq_of_hostMail (sendResponses_hostMail ..), mail_modMail_ne h]

theorem mail_drainLinks {mb : Mailbox} (h : mb = .host ∨ mb = .twb) (s : State) : mail (drainLinks s) mb = mail s mb := by
  have hring : mb ≠ .ring := by rintro rfl; simp at h
  have huart : mb ≠ .uart := by rintro rfl; simp at h
  rw [drainLinks, mail_drainRing hring, mail_drainUart huart]

theorem mail_pushHeld {mb : Mailbox} {e : Entry} {es : List Entry} {s : State} (hl : s.host.mail.length = 4) (hheld : (mail s mb).held = e :: es)
    (hq : (mail s mb).rspQ.length < 8) : mail (pushHeld mb s) mb = { mail s mb with rspQ := (mail s mb).rspQ ++ [e], held := es } := by
  simp only [pushHeld, hheld, if_pos hq, mail_modMail hl]

/-! The statement -/

/-- The window command and the register write at REQWIN discard alike (R297, R303). -/
theorem reqwin_discards {s : State} (hport : portAnswers s = true) (hl : s.host.mail.length = 4) {bytes : List Byte}
    (h : bytes.length ≠ 256 ∨ hostReady s = false) :
    (∃ t, exec (.reqwinPush bytes) s = .next t ∧ t = { s with host := t.host } ∧ (mail t .host).reqQ = (mail s .host).reqQ
        ∧ (mail t .host).winErr = true)
      ∧ ∃ t, exec (.registerWrite 0x20 bytes) s = .next t ∧ (mail t .host).reqQ = (mail s .host).reqQ ∧ (mail t .host).winErr = true := by
  rw [exec_reqwinPush hport, exec_registerWrite_reqwin hport, pushWindow_discards h]
  have hmail := mail_modMail hl .host fun m => { m with winErr := true }
  exact ⟨⟨_, rfl, modMail_frame .., by rw [hmail], by rw [hmail]⟩, _, rfl, by rw [hmail], by rw [hmail]⟩

/-- A push to a full request queue is lost and counted (R303, counter 69). -/
theorem reqwin_overflows {s : State} (hport : portAnswers s = true) (hl : s.host.mail.length = 4) {bytes : List Byte} (hlen : bytes.length = 256)
    (hready : hostReady s = true) (hreset : s.clk.inReset = none) (hfull : 8 ≤ (mail s .host).reqQ.length) :
    ∃ t, exec (.reqwinPush bytes) s = .next t ∧ (mail t .host).reqQ = (mail s .host).reqQ ∧ (mail t .host).reqOvf = true
      ∧ t.cnt.counters = s.cnt.counters.modify 69 (· + 1) := by
  rw [exec_reqwinPush hport, pushWindow_overflows hlen hready hreset hfull]
  have hmail := mail_modMail hl .host fun m => { m with reqOvf := true }
  exact ⟨_, rfl, by rw [mail_count, hmail], by rw [mail_count, hmail], count_counters ..⟩

/-- Settles O9: a discarded or overflowing window write changes no queue, an answer goes in where there is room and is held elsewhere, and the
drains that follow a push reach only the mailboxes of the ring and the service UART. -/
theorem noResponseIsLost : Obligations.NoResponseIsLost := by
  unfold Obligations.NoResponseIsLost
  refine ⟨fun s hport hl => ⟨fun bytes h => reqwin_discards hport hl h, fun bytes => reqwin_overflows hport hl⟩, ?answers, ?pops, ?pushes⟩
  case answers =>
    intro req op status f s hl
    have hheld (h : ¬Room req.mb s) : mail (answer req op status f s) req.mb
        = { mail s req.mb with held := (mail s req.mb).held ++ [response req op true status f] } := by
      rw [answer, mail_histFree, mail_pushEntry_held hl h]
    exact ⟨rfl, answer_replied, fun h => by rw [hheld h]; exact ⟨rfl, rfl⟩, fun mb => answer_mail_ne⟩
  case pops =>
    intro s hrun hl
    obtain hidle | ⟨mb, hserve, hexec⟩ := exec_requestPop hrun
    · exact .inl hidle
    · exact .inr ⟨mb, .of_servable hl hserve, hexec⟩
  case pushes =>
    intro mb e es s hmb hl hheld hq
    have hmail : mail (drainLinks (pushHeld mb s)) mb = { mail s mb with rspQ := (mail s mb).rspQ ++ [e], held := es } := by
      rw [mail_drainLinks hmb, mail_pushHeld hl hheld hq]
    exact ⟨_, rfl, by rw [hmail], by rw [hmail]⟩

end Sys2Proof.Machine
end

section
/-! PROOF. O10: the opcodes that run on the Wellhead alone, and what a member answers to them (R314). -/

namespace Sys2Proof.Machine

/-- The opcodes that run on the Wellhead alone (R314). -/
abbrev WellheadOnly (op : Nat) : Prop := 0x0701 ≤ op ∧ op ≤ 0x0708 ∨ op = 0x0C03

/-- The requests that carry these opcodes. -/
inductive WellheadRequest (req : Req) : Instr → Prop where
  | rackStatus : WellheadRequest req (.rackStatus req)
  | rackDispatch (vd tApply limDis limCh kind) : WellheadRequest req (.rackDispatch req vd tApply limDis limCh kind)
  | rackBus (vbus contactor) : WellheadRequest req (.rackBus req vbus contactor)
  | holdupClear : WellheadRequest req (.holdupClear req)
  | rackSleep : WellheadRequest req (.rackSleep req)
  | rackStage (records) : WellheadRequest req (.rackStage req records)
  | rackCommit (digest) : WellheadRequest req (.rackCommit req digest)
  | handover : WellheadRequest req (.handover req)
  | snapOrder (tLatch) : WellheadRequest req (.snapOrder req tLatch)

section
variable {c : Instr} {req : Req} {op : Nat} {payload : List Byte} {r : Rules} {s : State}

theorem WellheadRequest.of_requestOf (hc : requestOf c = some (req, op, payload)) (hop : WellheadOnly op) : WellheadRequest req c := by
  cases c with
  | rackStatus => cases hc; exact .rackStatus
  | rackDispatch => cases hc; exact .rackDispatch ..
  | rackBus => cases hc; exact .rackBus ..
  | holdupClear => cases hc; exact .holdupClear
  | rackSleep => cases hc; exact .rackSleep
  | rackStage => cases hc; exact .rackStage _
  | rackCommit => cases hc; exact .rackCommit _
  | handover => cases hc; exact .handover
  | snapOrder => cases hc; exact .snapOrder _
  | _ => cases hc <;> exact absurd hop (by decide)

/-- Each of them is refused in Watch and off the Wellhead, and needs no commit to begin (R314, R315). -/
theorem WellheadRequest.rules (h : WellheadRequest req c) (hr : rulesOf s c = some r) : r = ⟨r.least, true, true, false⟩ := by
  cases h <;> cases hr <;> rfl

/-- A well-formed one passes its own length check, so that its body is guarded by the shared checks alone. -/
theorem WellheadRequest.exec_runCommand (h : WellheadRequest req c) (hwf : c.wf = true) (hc : requestOf c = some (req, op, payload))
    (hr : rulesOf s c = some r) : ∃ body, exec c s = .next (runCommand req op r body s) := by
  cases h with
  | rackStage records =>
    have hlen : decide (5 ≤ records.length ∧ records.length ≤ 244) = true := hwf
    cases hr
    obtain ⟨-, rfl, -⟩ : req = req ∧ 0x0706 = op ∧ records = payload := by simpa [requestOf] using hc
    exact ⟨_, congrArg Host.Outcome.next (by rw [rackStageOp, hlen, runCommand])⟩
  | _ => cases hc; cases hr; exact ⟨_, rfl⟩

/-- The check of R314: a request of the Wellhead's that passes the checks before it is answered NOT_LEADER on a member. -/
theorem runCommand_notLeader {body : State → State} (hleader : r.leader = true) (hmember : s.rack.wellhead = false) (hlevel : LevelOk req r.least s)
    (htag : tagInUse req s = false) (hsafe : s.flt.safe = true → r.least = .monitor) (hwatch : s.clk.pstate ≠ .watch) :
    runCommand req op r body s = answer req op 0x40 [if s.rack.everObeyed then BitVec.ofNat 8 s.rack.leader else 0] s := by
  obtain ⟨hsession, hleast⟩ := hlevel
  have hsafe' : ¬(s.flt.safe = true ∧ r.least ≠ .monitor) := fun ⟨hs, hne⟩ => hne (hsafe hs)
  have hlevel' : ¬(sessionCode s req.mb < Access.code req.level ∨ Access.code req.level < Access.code r.least) := by omega
  have htag' : ¬(tagInUse req s = true ∨ true = false) := by simp [htag]
  rw [runCommand, runChecked, if_neg (by decide), if_neg hlevel', if_neg htag', if_neg hsafe', if_neg fun hw => hwatch hw.1,
    if_pos ⟨hleader, hmember⟩]

/-- On the Wellhead no check answers NOT_LEADER: the storage conditions have codes of their own (R315). -/
theorem firstFailure_ne_notLeader (h : s.rack.wellhead = true) : firstFailure req r s ≠ some 0x40 := by
  have hnv : nvRefusal s ≠ some 0x40 := by unfold nvRefusal; (repeat' split) <;> decide
  unfold firstFailure
  have hrole : ¬(r.leader = true ∧ s.rack.wellhead = false) := fun ⟨_, hmember⟩ => Bool.false_ne_true (hmember.symm.trans h)
  rw [if_neg hrole]
  iterate 4 (split; exact by decide)
  split
  · exact hnv
  · decide

end

/-- Settles O10: each request of R314 is its body behind the shared checks, where the check of the role stands after those of the level, the TAG,
safe mode and Watch. -/
theorem aMemberRefusesWellheadCommands : Obligations.AMemberRefusesWellheadCommands := by
  unfold Obligations.AMemberRefusesWellheadCommands
  intro c req op payload r s hwf hc hr hop
  refine ⟨fun hmember hlevel htag hsafe hwatch => ?_, firstFailure_ne_notLeader⟩
  have hwell := WellheadRequest.of_requestOf hc hop
  have hleader : r.leader = true := by rw [hwell.rules hr]
  obtain ⟨body, hexec⟩ := hwell.exec_runCommand hwf hc hr
  rw [hexec, runCommand_notLeader hleader hmember hlevel htag hsafe hwatch]

end Sys2Proof.Machine
end

section
/-! PROOF. O11: the run of requested IDs that CFG_READ deals with (R405). -/

namespace Sys2Proof.Machine

/-- The bytes that CFG_READ gives for an ID: the record of its values, nothing where the source has none (R405). -/
def readBytesOf (get : Nat → Option (List Int)) (id : Nat) : List Byte := ((get id).map (recordBytes id)).getD []

theorem readRecords_cons (get : Nat → Option (List Int)) (id : Nat) (ids : List Nat) (room : Nat) :
    readRecords get (id :: ids) room =
      if room < (readBytesOf get id).length then (0, [])
      else ((readRecords get ids (room - (readBytesOf get id).length)).1 + 1,
        readBytesOf get id ++ (readRecords get ids (room - (readBytesOf get id).length)).2) := by
  rw [readRecords, readBytesOf]
  cases get id <;> rfl

/-- A count n and bytes out that are the longest run of the IDs' records that fits a room. -/
structure LongestRun (bytes : Nat → List Byte) (ids : List Nat) (room n : Nat) (out : List Byte) : Prop where
  count_le : n ≤ ids.length
  out_eq   : out = (ids.take n).flatMap bytes
  fits     : out.length ≤ room
  next_not : ∀ id, ids[n]? = some id → room < out.length + (bytes id).length

theorem readRecords_longestRun (get : Nat → Option (List Int)) (ids : List Nat) (room : Nat) :
    LongestRun (readBytesOf get) ids room (readRecords get ids room).1 (readRecords get ids room).2 := by
  induction ids generalizing room with
  | nil => exact ⟨Nat.le_refl _, rfl, Nat.zero_le _, by simp⟩
  | cons id ids ih =>
    rw [readRecords_cons]
    split
    case isTrue hfull => exact ⟨Nat.zero_le _, rfl, Nat.zero_le _, by simpa [readRecords] using hfull⟩
    case isFalse hroom =>
      obtain ⟨hcount, hout, hfits, hnext⟩ := ih (room - (readBytesOf get id).length)
      refine ⟨by simpa using hcount, by simpa using hout, ?_, fun i hi => ?_⟩
      · rw [List.length_append]; omega
      · have := hnext i (by simpa using hi)
        rw [List.length_append]; omega

/-- The source of CFG_READ: the committed set, or the staging set of the request's mailbox (R405). -/
def readSource (req : Req) (source : Byte) (s : State) (id : Nat) : Option (List Int) :=
  if source = 0 then some (paramIn s.cfg.params id) else ((mail s req.mb).staged.find? (·.id == id)).map (·.vals)

theorem exec_cfgRead {req : Req} {source : Byte} {ids : List (BitVec 16)} {s : State} (h : Serves req (.atLevel .monitor) s) (hpos : 1 ≤ ids.length)
    (hmax : ids.length ≤ 120) (hsource : source.toNat ≤ 1) (hknown : ∀ i ∈ ids, (paramSpec i.toNat).isSome) :
    exec (.cfgRead req source ids) s =
      .next (answer req 0x0204 0x00 (leBytes 1 (readRecords (readSource req source s) (ids.map (·.toNat)) 241).1
        ++ (readRecords (readSource req source s) (ids.map (·.toNat)) 241).2) s) := by
  change Host.Outcome.next (cfgReadOp req source ids s) = _
  rw [cfgReadOp, runChecked_serves h (by simp [hpos, hmax]) rfl]
  dsimp only
  have hids : ∀ i ∈ ids, paramSpec i.toNat ≠ none := fun i hi => Option.isSome_iff_ne_none.mp (hknown i hi)
  rw [if_neg (by simpa using ⟨hids, hsource⟩)]
  rfl

/-- Settles O11: the count and the records are those of the longest run that fits the 241 bytes beside STATUS, the reserved byte and RETURNED. -/
theorem cfgReadTakesIdsInOrder : Obligations.CfgReadTakesIdsInOrder := by
  unfold Obligations.CfgReadTakesIdsInOrder
  intro req source ids s hserves hpos hmax hsource hknown records
  have hrecords : records = fun i => readBytesOf (readSource req source s) i.toNat := by
    funext i
    simp only [records, readBytesOf, readSource]
    by_cases h0 : source = 0
    · simp only [if_pos h0, Option.map_some, Option.getD_some]
    · simp only [if_neg h0, Option.map_map, Function.comp_def]
  clear_value records
  obtain ⟨hcount, hout, hfits, hnext⟩ := readRecords_longestRun (readSource req source s) (ids.map (·.toNat)) 241
  rw [exec_cfgRead hserves hpos hmax hsource hknown]
  generalize readRecords (readSource req source s) (ids.map (·.toNat)) 241 = r at *
  have hrun : r.2 = (ids.take r.1).flatMap records := by rw [hout, ← List.map_take, List.flatMap_map, hrecords]
  refine ⟨r.1, by simpa using hcount, by rw [hrun], by rw [← hrun]; omega, fun i hi => ?_⟩
  have hfull : 241 < r.2.length + (records i).length := by rw [hrecords]; exact hnext i.toNat (by simp [hi])
  rw [← hrun]; omega

end Sys2Proof.Machine
end
